-- ==== Sys2Proof/Word.lean ====
section
/-!
DEFINITION. The widths of the values the block handles: data bytes of 8 bits and the 32-bit words of a register
access (spec 00_scope.md R8, 20_memory.md R60, R65).
-/

namespace Sys2Proof

/-- A data byte, a register field or a byte on the bus (R8: "Data byte width 8 bits"). -/
abbrev Byte := BitVec 8

/-- The data word of a register access (R65: "Every register access is exactly 32 bits wide"). -/
abbrev Word := BitVec 32

/-- A device address on the bus (R8: 7 bits). -/
abbrev DevAddr := BitVec 7

end Sys2Proof
end

