-- ==== Sys2Proof/Config.lean ====
section
/-!
DEFINITION. What is fixed for one machine or left open by the spec: the bus/device oracle's interface and the bus
events it depends on (41_bus_commands.md R139, R141), the free values (`draw()`, 00_scope.md R10), the order of the
agents' steps (20_memory.md R70), and the parameters of 00_scope.md R8. Everything open is an opaque constant with no
body, so no proof can see its value. Log entries 1, 4, 5, 8.
-/

namespace Sys2Proof

/-- The answer to an address or transmit phase (R139). -/
inductive Answer where
  | ack | nack | arbLost
deriving DecidableEq, Repr, Inhabited

/-- What the master drives after a received byte (R126, R128). -/
inductive MasterAck where
  | ack | nack
deriving DecidableEq, Repr, Inhabited

/-- The answer to a receive phase: a byte, or arbitration loss (R139). -/
inductive RxAnswer where
  | byte (v : Byte)
  | arbLost
deriving DecidableEq, Repr, Inhabited

/-- The bus events recorded in HB (R141). -/
inductive BusEvent where
  | start
  | rstart
  | addr (b : Byte) (a : Answer)
  | tx (b : Byte) (t : Answer)
  | rx (v : Byte) (m : MasterAck)
  | rxLost
  | stop
deriving DecidableEq, Repr, Inhabited

/-- The bus/device oracle `O` (R139): "Each function may depend only on the bus history HB and on its argument." -/
structure Oracle where
  addr  : List BusEvent → Byte → Answer
  tx    : List BusEvent → Byte → Answer
  rx    : List BusEvent → MasterAck → RxAnswer
  stall : List BusEvent → Bool

/-- The agents that take steps (R7). The oracle is no agent of the block: it is `Oracle`. -/
inductive Agent where
  | host | engine | controller
deriving DecidableEq, Repr, Inhabited

/-- All that a run is relative to: the oracle, the free values by their number, the schedule, and MAX_BURST. The
operations below take it as an argument ("A model takes each OPEN parameter as an argument", R8), so that a
statement may speak of every one. -/
structure Env where
  oracle   : Oracle
  /-- the k-th `draw()` (R10) -/
  free     : Nat → Word
  /-- who moves after step k (R70: the order is left open) -/
  schedule : Nat → Agent
  /-- MAX_BURST (R8) -/
  maxBurst : Nat

namespace Config

/-- The bus and its devices, uninterpreted (R139). Log entry 5. -/
opaque oracleAddr : List BusEvent → Byte → Answer
opaque oracleTx : List BusEvent → Byte → Answer
opaque oracleRx : List BusEvent → MasterAck → RxAnswer
opaque oracleStall : List BusEvent → Bool

/-- The free values (R10: "The model admits every value, so proofs must hold for all of them"). DESIGN CHOICE, log
entry 4. -/
opaque freeWord : Nat → Word

/-- The order of the agents' steps, uninterpreted (R70, R215: "claims hold for every schedule"). DESIGN CHOICE, log
entry 1. -/
opaque schedule : Nat → Agent

/-- MAX_BURST less one: the parameter is OPEN, "an integer of at least 1" (R8). Log entry 8. -/
opaque maxBurstPred : Nat

/-- MAX_BURST (R8, D24). -/
def maxBurst : Nat := maxBurstPred + 1

/-- I2C_BASE, the base of the register window: OPEN (R8, R68). Log entry 8. -/
opaque i2cBase : Nat

/-- Register window size in bytes (R8, R68). -/
def windowSize : Nat := 4096

/-- SCL_LP and SCL_HP, the low and high period constants (R8, D16). Log entry 27. -/
def sclLp : Nat := 6
def sclHp : Nat := 4

def oracle : Oracle := { addr := oracleAddr, tx := oracleTx, rx := oracleRx, stall := oracleStall }

/-- The machine's own environment: every part of it open. -/
def env : Env := { oracle := oracle, free := freeWord, schedule := schedule, maxBurst := maxBurst }

end Config

end Sys2Proof
end

