-- ==== Sys2Proof/Syntax.lean ====
section
/-!
DEFINITION. The instructions (one constructor per row of spec/opcode_table.json), the registers of the window, and
the inputs as they arrive at the block, before decoding (30_encoding.md R80, R81, R83, R86).
-/

namespace Sys2Proof

/-- The four registers of the window (R68). -/
inductive Reg where
  | msa | mcs | mdr | mtpr
deriving DecidableEq, Repr, Inhabited

/-- The engine's operations (R86). -/
inductive Op where
  | init | writeOne | readOne | writeBurst | readBurst
deriving DecidableEq, Repr, Inhabited

/-- The typed operands of format REQ (R86), before any check: each operation reads only its own. The clocks are
integers, since R160 gives non-positive ones a fault. Log entry 9. -/
structure Operands where
  dev    : Nat := 0
  reg    : Nat := 0
  val    : Nat := 0
  n      : Nat := 0
  wbuf   : List Nat := []
  sysclk : Int := 0
  target : Int := 0
deriving DecidableEq, Repr, Inhabited

/-- One input as the host presents it: a register access in format ACC (13 bits, its width in bytes, its data word), a
command word in format CMD (an MCS write named by its word), or an engine request in format REQ (R80). -/
inductive Input where
  | acc (bits : BitVec 13) (width : Nat) (data : Word)
  | cmd (word : Byte)
  | req (op : BitVec 3) (o : Operands)
deriving DecidableEq, Repr, Inhabited

/-- One constructor per row of spec/opcode_table.json. A `wr…` carries the access's data word; the CMD rows are MCS
writes of that command word (log entry 10); the REQ rows carry their operands. -/
inductive Instr where
  | rdMsa
  | rdMcs
  | rdMdr
  | rdMtpr
  | wrMsa (data : Word)
  | wrMcs (data : Word)
  | wrMdr (data : Word)
  | wrMtpr (data : Word)
  | cmdRun
  | cmdStartRun
  | cmdStop
  | cmdStopRun
  | cmdStartStopRun
  | cmdRunAck
  | cmdStartRunAck
  | init (sysclk target : Int)
  | writeOne (dev reg val : Nat)
  | readOne (dev reg : Nat)
  | writeBurst (dev reg n : Nat) (wbuf : List Nat)
  | readBurst (dev reg n : Nat)
deriving DecidableEq, Repr, Inhabited

end Sys2Proof
end

