-- ==== Sys2Proof/WellFormed.lean ====
section
/-!
DEFINITION. The operand values the encoding gives a meaning: reserved bits zero, operands within their widths
(20_memory.md R65, 30_encoding.md R85, R87, R86, 43_engine.md R170). The machine does not rely on it: an ill-formed
instruction has its fault.
-/

namespace Sys2Proof

/-- Bits 31:8 of a written data word are 0 (R65). -/
def upperClear (data : Word) : Bool := data.extractLsb' 8 24 == 0#24

/-- The command words R83 names (R87, second class). -/
def admittedWord (w : Byte) : Bool :=
  w == 0x01#8 || w == 0x03#8 || w == 0x04#8 || w == 0x05#8 || w == 0x07#8 || w == 0x09#8 || w == 0x0B#8

/-- HS = 0 and TPR from 1 to 127 (R85). -/
def legalTpr (v : Byte) : Bool := !v.getLsbD 7 && v != 0#8

/-- An address and register-select pair within 7 and 8 bits (R86). -/
def deviceOperandsOk (dev reg : Nat) : Bool := dev ≤ 0x7F && reg ≤ 0xFF

/-- An instruction whose operands are all legal for a machine with the given MAX_BURST. -/
def Instr.wellFormed (maxBurst : Nat) : Instr → Bool
  | .rdMsa => true
  | .rdMcs => true
  | .rdMdr => true
  | .rdMtpr => true
  | .wrMsa d => upperClear d
  | .wrMcs d => upperClear d && admittedWord (d.setWidth 8)
  | .wrMdr d => upperClear d
  | .wrMtpr d => upperClear d && legalTpr (d.setWidth 8)
  | .cmdRun => true
  | .cmdStartRun => true
  | .cmdStop => true
  | .cmdStopRun => true
  | .cmdStartStopRun => true
  | .cmdRunAck => true
  | .cmdStartRunAck => true
  | .init sysclk target => 1 ≤ sysclk && 1 ≤ target
  | .writeOne dev reg val => deviceOperandsOk dev reg && val ≤ 0xFF
  | .readOne dev reg => deviceOperandsOk dev reg
  | .writeBurst dev reg n wbuf =>
    deviceOperandsOk dev reg && n ≤ maxBurst && wbuf.length == n && wbuf.all (· ≤ 0xFF)
  | .readBurst dev reg n => deviceOperandsOk dev reg && n ≤ maxBurst

end Sys2Proof
end

