-- ==== Sys2Proof/Decode.lean ====
section
/-!
DEFINITION. The decoder, total on every input and rejecting by name, then the encoder, both from spec/30_encoding.md
R81 to R87; the host's memory accesses to the window (20_memory.md R68, 00_scope.md R10); and the reading of an
opcode-table word.
-/

namespace Sys2Proof

/-- Why an input is no instruction (R88: "Every reserved encoding faults"). -/
inductive Reject where
  /-- an access of another width or at an unmapped offset (R64, R65) -/
  | badAccess
  /-- a command word with HS or a reserved bit set (R87) -/
  | reservedCommand
  /-- a command word outside R83's seven (R87) -/
  | illegalCommand
  /-- a request with OP 5, 6 or 7 (R86) -/
  | reservedOp
deriving DecidableEq, Repr

/-- What a decode gives. -/
inductive Decoded where
  | ok (i : Instr)
  | reject (r : Reject)
deriving DecidableEq, Repr

/-- The byte offset of a register in the window (R68). -/
def Reg.offset : Reg → BitVec 12
  | .msa => 0x000#12
  | .mcs => 0x004#12
  | .mdr => 0x008#12
  | .mtpr => 0x00C#12

/-- The register at a byte offset; `none` is unmapped (R68). -/
def regAt (off : BitVec 12) : Option Reg :=
  if off = 0x000#12 then some .msa
  else if off = 0x004#12 then some .mcs
  else if off = 0x008#12 then some .mdr
  else if off = 0x00C#12 then some .mtpr
  else none

/-- A read of a register as an instruction (R81, W = 0). -/
def readInstr : Reg → Instr
  | .msa => .rdMsa
  | .mcs => .rdMcs
  | .mdr => .rdMdr
  | .mtpr => .rdMtpr

/-- A write of a register as an instruction (R81, W = 1). -/
def writeInstr (data : Word) : Reg → Instr
  | .msa => .wrMsa data
  | .mcs => .wrMcs data
  | .mdr => .wrMdr data
  | .mtpr => .wrMtpr data

/-- Format ACC (R81): bit 12 is W, bits 11:0 the OFFSET; the width must be 4 bytes (R65). -/
def decodeAcc (bits : BitVec 13) (width : Nat) (data : Word) : Decoded :=
  if width ≠ 4 then .reject .badAccess
  else match regAt (bits.setWidth 12) with
    | none => .reject .badAccess
    | some r => if bits.getLsbD 12 then .ok (writeInstr data r) else .ok (readInstr r)

/-- Format CMD (R83, R87): first the reserved bits 7:4, then the seven words. -/
def decodeCmd (w : Byte) : Decoded :=
  if w.extractLsb' 4 4 ≠ 0#4 then .reject .reservedCommand
  else if w = 0x01#8 then .ok .cmdRun
  else if w = 0x03#8 then .ok .cmdStartRun
  else if w = 0x04#8 then .ok .cmdStop
  else if w = 0x05#8 then .ok .cmdStopRun
  else if w = 0x07#8 then .ok .cmdStartStopRun
  else if w = 0x09#8 then .ok .cmdRunAck
  else if w = 0x0B#8 then .ok .cmdStartRunAck
  else .reject .illegalCommand

/-- The operation an OP selects (R86); `none` is reserved. -/
def opOf (op : BitVec 3) : Option Op :=
  if op = 0#3 then some .init
  else if op = 1#3 then some .writeOne
  else if op = 2#3 then some .readOne
  else if op = 3#3 then some .writeBurst
  else if op = 4#3 then some .readBurst
  else none

/-- Format REQ (R86): OP selects the operation, which reads its own operands. -/
def decodeReq (op : BitVec 3) (o : Operands) : Decoded :=
  match opOf op with
  | some .init => .ok (.init o.sysclk o.target)
  | some .writeOne => .ok (.writeOne o.dev o.reg o.val)
  | some .readOne => .ok (.readOne o.dev o.reg)
  | some .writeBurst => .ok (.writeBurst o.dev o.reg o.n o.wbuf)
  | some .readBurst => .ok (.readBurst o.dev o.reg o.n)
  | none => .reject .reservedOp

/-- The decoder, total on every input (R80: every format has a fixed width). -/
def decode : Input → Decoded
  | .acc bits width data => decodeAcc bits width data
  | .cmd w => decodeCmd w
  | .req op o => decodeReq op o

/-- The access that reads a register, in format ACC (R81). A read carries no data: 0. -/
def readInput (r : Reg) : Input := .acc (r.offset.setWidth 13) 4 0#32

/-- The access that writes a word to a register, in format ACC (R81). -/
def writeInput (r : Reg) (data : Word) : Input := .acc (0x1000#13 ||| r.offset.setWidth 13) 4 data

/-- An operation's OP (R86). -/
def Op.code : Op → BitVec 3
  | .init => 0#3
  | .writeOne => 1#3
  | .readOne => 2#3
  | .writeBurst => 3#3
  | .readBurst => 4#3

/-- The request of an operation, in format REQ (R86). -/
def reqInput (op : Op) (o : Operands) : Input := .req op.code o

/-- The encoder, from the same tables (R81, R83, R86). -/
def encode : Instr → Input
  | .rdMsa => readInput .msa
  | .rdMcs => readInput .mcs
  | .rdMdr => readInput .mdr
  | .rdMtpr => readInput .mtpr
  | .wrMsa d => writeInput .msa d
  | .wrMcs d => writeInput .mcs d
  | .wrMdr d => writeInput .mdr d
  | .wrMtpr d => writeInput .mtpr d
  | .cmdRun => .cmd 0x01#8
  | .cmdStartRun => .cmd 0x03#8
  | .cmdStop => .cmd 0x04#8
  | .cmdStopRun => .cmd 0x05#8
  | .cmdStartStopRun => .cmd 0x07#8
  | .cmdRunAck => .cmd 0x09#8
  | .cmdStartRunAck => .cmd 0x0B#8
  | .init sysclk target => reqInput .init { sysclk := sysclk, target := target }
  | .writeOne dev reg val => reqInput .writeOne { dev := dev, reg := reg, val := val }
  | .readOne dev reg => reqInput .readOne { dev := dev, reg := reg }
  | .writeBurst dev reg n wbuf => reqInput .writeBurst { dev := dev, reg := reg, n := n, wbuf := wbuf }
  | .readBurst dev reg n => reqInput .readBurst { dev := dev, reg := reg, n := n }

/-- MemRead and MemWrite (R10) seen by the block: an access at a host address inside the window starting at `base` is
the ACC access of its offset (R68); an address outside it is not the block's, and gives no input. -/
def memInput (base : Nat) (isWrite : Bool) (addr width : Nat) (data : Word) : Option Input :=
  if base ≤ addr ∧ addr < base + Config.windowSize then
    some (.acc ((if isWrite then 0x1000#13 else 0#13) ||| BitVec.ofNat 13 (addr - base)) width data)
  else none

/-- The input an opcode-table word stands for, its operands all 0. A word of 13 or 16 bits is format ACC, of 3 bits
format REQ. Eight bits hold a CMD word or, in whole bytes, a REQ word: the table's two formats meet there, and a word
that is one of R83's seven commands is read as the command. DESIGN CHOICE, log entry 18. -/
def tableInput (nbits w : Nat) : Option Input :=
  if nbits = 16 ∨ nbits = 13 then
    if w < 8192 then some (.acc (BitVec.ofNat 13 w) 4 0#32) else none
  else if nbits = 8 then
    if w = 0 ∨ w = 2 then some (.req (BitVec.ofNat 3 w) {})
    else if w < 256 then some (.cmd (BitVec.ofNat 8 w)) else none
  else if nbits = 3 then
    if w < 8 then some (.req (BitVec.ofNat 3 w) {}) else none
  else none

/-- The instruction the decoder reads from an opcode-table word (log entry 18). -/
def decodeTableWord (nbits w : Nat) : Option Instr :=
  match tableInput nbits w with
  | none => none
  | some inp =>
    match decode inp with
    | .ok i => some i
    | .reject _ => none

end Sys2Proof
end

