-- ==== Sys2Proof/Machine/State.lean ====
section
/-!
DEFINITION. The machine's state, every piece the spec gives it (spec/10_state.md, 60_exceptions.md R214), as plain data; the
fault reasons (R213); the state after reset (70_reset_and_hazards.md R240).
-/

namespace Sys2Proof.Machine

/-- The fault reasons of R213, a closed list. Each is taken as a NEXT state: the reason is recorded, nothing else changes,
and the agent that raised it takes no further step (R214; `raise` in Ops.lean, log entry 3). No step answers
`Host.Outcome.fault`. Every one is safe: "the model refuses a use that a chip might give a meaning" (R213). -/
inductive Fault where
  /-- code 1: an access of width other than 32 bits or at an unmapped offset; raised by the host's access (R100). Safe. -/
  | badAccess
  /-- code 2: a write with bits 31:8 not 0 (R100), or MTPR bit 7 set (R104). Safe. -/
  | reservedBits
  /-- code 3: a command word with bits 7:4 not 0 (R120). Safe. -/
  | reservedCommand
  /-- code 4: a write to MSA, MDR, MCS or MTPR while busy (R101 to R104). Safe. -/
  | busyWrite
  /-- code 5: a read of MDR while busy (R106). Safe. -/
  | busyRead
  /-- code 6: a command word not admitted in the bus state or with the direction (R120, R121). Safe. -/
  | illegalCommand
  /-- code 7: a write to MTPR while the bus is held (R104); the engine can raise it at INIT's step I1. Safe. -/
  | configWhileActive
  /-- code 8: a write to MTPR with TPR = 0 (R104). Safe. -/
  | badDivisor
  /-- code 9: a request, or a host register access, while the engine is active (R170, R100). Safe. -/
  | engineBusy
  /-- code 10: a transaction request before INIT has run (R170). Safe. -/
  | notInitialised
  /-- code 11: INIT with a divisor outside 1 to 127 or a non-positive operand, raised by the engine at I0 (R160). Safe. -/
  | clockOutOfRange
  /-- code 12: a request with OP 5, 6 or 7 (R170). Safe. -/
  | reservedOp
  /-- code 13: a request operand out of range (R170). Safe. -/
  | badOperand
  /-- code 14: a read or use of MSA, MDR or MTPR while it holds no value (R105, R106, R108, R120). Safe. -/
  | unwritten
deriving DecidableEq, Repr

/-- The codes of R213, "the spec's own numbering". -/
def Fault.code : Fault → Nat
  | .badAccess => 1
  | .reservedBits => 2
  | .reservedCommand => 3
  | .busyWrite => 4
  | .busyRead => 5
  | .illegalCommand => 6
  | .configWhileActive => 7
  | .badDivisor => 8
  | .engineBusy => 9
  | .notInitialised => 10
  | .clockOutOfRange => 11
  | .reservedOp => 12
  | .badOperand => 13
  | .unwritten => 14

/-- The only refusal: an instruction with no meaning yet. No arm of `exec` answers it in this model. -/
inductive Refusal where
  /-- raised by an arm of `exec` that has no meaning; safe: the machine stops -/
  | notModelled (mnemonic : String)
deriving DecidableEq, Repr

/-- The bus state (R25). -/
inductive CState where
  /-- this master does not hold the bus -/
  | idle
  /-- it holds the bus after an acknowledged transmit -/
  | tx
  /-- it holds the bus after a receive it acknowledged -/
  | rx
  /-- it holds the bus, but only STOP or START may follow -/
  | hold
deriving DecidableEq, Repr, Inhabited

/-- A command's direction (R26). -/
inductive Dir where
  | tx | rx
deriving DecidableEq, Repr, Inhabited

/-- The pending-command latch (R26); `origin` is R26's `from`, the bus state at acceptance. `addr` and `data` are MSA and
MDR as acceptance found them, `none` where the register held no value; `addr` is meaningful only with START and `data`
only for a transmit (R120). Log entry 11. -/
structure Pend where
  start  : Bool
  stop   : Bool
  run    : Bool
  ack    : Bool
  dir    : Option Dir
  origin : CState
  addr   : Option Byte
  data   : Option Byte
deriving DecidableEq, Repr, Inhabited

/-- The source's transaction states (R29). -/
inductive EState where
  | idle | addrWritePending | addrWriteDone | dataPending | stopPending | error
deriving DecidableEq, Repr, Inhabited

/-- The step labels of the engine's sequences: INIT (R160), the entry guard T0 (R174), ADDRW A1 to A4 (R176), ABORT with X1 and
X2 (R177), WRITE_ONE W (R190), READ_ONE R (R191), WRITE_BURST B (R192), READ_BURST Q, M, L, S (R193). -/
inductive Label where
  | i0 | i1
  | t0
  | a1 | a2 | a3 | a4
  | abort | x1 | x2
  | w1 | w2 | w3
  | r1 | r2 | r3 | r4
  | b1 | b2 | b3 | b4 | b5 | b6
  | q1 | q2 | q3 | q4
  | m1 | m2 | m3
  | l1 | l2 | l3
  | s1 | s2 | s3
deriving DecidableEq, Repr, Inhabited

/-- The engine's sequencer position, a pair of a label and a byte index (R30). -/
structure Pos where
  label : Label
  i     : Nat
deriving DecidableEq, Repr, Inhabited

/-- A result's status (R32, D19). -/
inductive Status where
  | ok | fail
deriving DecidableEq, Repr, Inhabited

/-- OK = 0 and FAIL = 1 (R32). -/
def Status.code : Status → BitVec 1
  | .ok => 0#1
  | .fail => 1#1

/-- A register access's kind (R28). -/
inductive Kind where
  | rd | wr
deriving DecidableEq, Repr, Inhabited

/-- One entry of HR: `(agent, kind, register, value)` (R28). The value is the access's whole data word (log entry 14). -/
structure RegEvent where
  agent : Agent
  kind  : Kind
  reg   : Reg
  value : Word
deriving DecidableEq, Repr, Inhabited

/-- A request as the engine latched it (R31). -/
inductive Request where
  | init (sysclk target : Int)
  | writeOne (dev : DevAddr) (reg val : Byte)
  | readOne (dev : DevAddr) (reg : Byte)
  | writeBurst (dev : DevAddr) (reg : Byte) (n : Nat) (wbuf : List Byte)
  | readBurst (dev : DevAddr) (reg : Byte) (n : Nat)
deriving DecidableEq, Repr, Inhabited

/-- The result of a request (R171): a status, and for a read its byte or bytes. -/
inductive Result where
  | status (st : Status)
  | byte (st : Status) (b : Byte)
  | bytes (st : Status) (bs : List Byte)
deriving DecidableEq, Repr, Inhabited

/-- One entry of HE: `(request, result)` (R28). -/
structure EngEvent where
  request : Request
  result  : Result
deriving DecidableEq, Repr, Inhabited

/-- One entry of the fault record: `(reason, agent, the access or request)` (R214). -/
structure FaultRecord where
  reason : Fault
  agent  : Agent
  what   : Input
deriving DecidableEq, Repr

/-- The machine's state. Field by field the rule of spec/ that names it; the last four are the model's own. -/
structure State where
  /-- MSA (R20); `none` is the spec's own value: it holds no value until first written (log entry 6) -/
  msa : Option Byte
  /-- MDR (R21) -/
  mdr : Option Byte
  /-- MTPR (R24) -/
  mtpr : Option Byte
  /-- the bus state (R25) -/
  cstate : CState
  /-- BUSY (R26) -/
  busy : Bool
  /-- the pending-command latch (R26) -/
  pend : Option Pend
  /-- the error latches (R27) -/
  adrack : Bool
  datack : Bool
  arblst : Bool
  /-- HB, the bus history, oldest first (R28) -/
  hb : List BusEvent
  /-- HR, the register-access history, oldest first (R28) -/
  hr : List RegEvent
  /-- HE, the engine history, oldest first (R28) -/
  he : List EngEvent
  /-- the transaction state (R29) -/
  estate : EState
  /-- the engine's position (R30) -/
  epc : Pos
  /-- the request latches (R31) -/
  op : Op
  dev : DevAddr
  reg : Byte
  val : Byte
  n : Nat
  wbuf : List Byte
  sysclk : Int
  target : Int
  /-- INIT's `tpr`, from step I0 to step I1 (R160; log entry 19) -/
  tpr : Byte
  /-- `s`, the status word of the engine's last poll (R32) -/
  snap : Byte
  /-- the receive buffer, MAX_BURST bytes (R32) -/
  rbuf : List Byte
  /-- the status of the last request (R32) -/
  status : Status
  /-- READ_ONE's byte (R32) -/
  rdata : Byte
  /-- a request has finished (R32) -/
  done : Bool
  /-- the engine-active bit (R32) -/
  eact : Bool
  /-- a successful INIT has run (R33) -/
  initDone : Bool
  /-- the fault record, oldest first, never cleared (R214) -/
  faults : List FaultRecord
  /-- MODEL'S OWN: how many free values have been drawn (log entry 4) -/
  draws : Nat
  /-- MODEL'S OWN: the host's moves still to come, oldest first (log entry 2) -/
  hostQ : List Input
  /-- MODEL'S OWN: the agent whose step is next (log entry 1) -/
  turn : Agent
  /-- MODEL'S OWN: how many steps the schedule has given (log entry 1) -/
  tick : Nat
deriving DecidableEq, Repr

/-- The state after reset (R240). `epc`, the request latches, `tpr`, `s`, `rbuf`, `status` and `rdata` are unspecified
there and hold a DESIGN CHOICE (log entry 7), as do the model's own fields (log entries 1, 2, 4). -/
def State.reset : State where
  msa := none
  mdr := none
  mtpr := none
  cstate := .idle
  busy := false
  pend := none
  adrack := false
  datack := false
  arblst := false
  hb := []
  hr := []
  he := []
  estate := .idle
  epc := { label := .t0, i := 0 }
  op := .init
  dev := 0#7
  reg := 0#8
  val := 0#8
  n := 0
  wbuf := []
  sysclk := 0
  target := 0
  tpr := 0#8
  snap := 0#8
  rbuf := List.replicate Config.maxBurst 0#8
  status := .ok
  rdata := 0#8
  done := false
  eact := false
  initDone := false
  faults := []
  draws := 0
  hostQ := []
  turn := .host
  tick := 0

end Sys2Proof.Machine
end

