-- ==== Sys2Proof/Machine/Flags.lean ====
section
/-!
DEFINITION. Every flag computation: ERROR and the status word (10_state.md R23, 40_register_access.md R107), the
engine's error test (43_engine.md R173), and the clearing of the error latches (41_bus_commands.md R120).
-/

namespace Sys2Proof.Machine

/-- ERROR, the OR of the three latches (R23, R27). -/
def errorFlag (s : State) : Bool := s.adrack || s.datack || s.arblst

/-- Status bits 4:0 when not busy (R107), zero-extended: ARBLST b4, DATACK b3, ADRACK b2, ERROR b1, BUSY b0 = 0. -/
def statusBits (s : State) : Word :=
  (if s.arblst then 0x10#32 else 0#32) ||| (if s.datack then 0x08#32 else 0#32)
    ||| (if s.adrack then 0x04#32 else 0#32) ||| (if errorFlag s then 0x02#32 else 0#32)

/-- What a read of MCS returns, from a drawn word (R107): while busy only bit 0 is defined, and it is 1; else bits 4:0
are, and bits 31:5 are drawn. -/
def statusWord (drawn : Word) (s : State) : Word :=
  if s.busy then drawn ||| 1#32 else (drawn &&& 0xFFFFFFE0#32) ||| statusBits s

/-- What a read of an 8-bit register returns (R65, R105): bits 31:8 are drawn. -/
def padByte (drawn : Word) (v : Byte) : Word := (drawn &&& 0xFFFFFF00#32) ||| v.setWidth 32

/-- The engine's error test (R173): `(s & 0x12) ≠ 0`, ERROR or ARBLST. -/
def err (snap : Byte) : Bool := snap &&& 0x12#8 != 0#8

/-- Acceptance clears the three error latches (R27, R120). -/
def clearLatches (s : State) : State := { s with adrack := false, datack := false, arblst := false }

end Sys2Proof.Machine
end

