-- ==== Sys2Proof/Machine/Operands.lean ====
section
/-!
DEFINITION. Operand forms: the address-plus-direction byte (30_encoding.md R82), the fields of a command word (R83), the
admission of commands (41_bus_commands.md R121), the divisor (42_clock_config.md R161, R162), and the checks and latched
form of a request's operands (43_engine.md R170, 10_state.md R31).
-/

namespace Sys2Proof.Machine

/-- Format SA (R82): `{dev[6:0], rs}`; dev is shifted left by one (R89). -/
def saByte (dev : DevAddr) (rs : Bool) : Byte := (dev.setWidth 8 <<< 1) ||| (if rs then 1#8 else 0#8)

/-- The fields of a command word (R83). -/
def cmdRunBit (w : Byte) : Bool := w.getLsbD 0
def cmdStartBit (w : Byte) : Bool := w.getLsbD 1
def cmdStopBit (w : Byte) : Bool := w.getLsbD 2
def cmdAckBit (w : Byte) : Bool := w.getLsbD 3

/-- HS or a reserved bit of a command word is set (R87, first class). -/
def cmdReserved (w : Byte) : Bool := w.extractLsb' 4 4 != 0#4

/-- RS, the direction bit of MSA (R20). It is looked at only in rows with START, which are reached only when MSA holds a
value (R120). -/
def rsBit (msa : Option Byte) : Bool :=
  match msa with
  | some m => m.getLsbD 0
  | none => false

/-- The admission table (R121): the cells that show a result. `w` is w[3:0]. -/
def admitted (st : CState) (rs : Bool) (w : BitVec 4) : Bool :=
  if w = 0x1#4 then st == .tx || st == .rx
  else if w = 0x3#4 then true
  else if w = 0x4#4 then true
  else if w = 0x5#4 then st == .tx || st == .rx
  else if w = 0x7#4 then true
  else if w = 0x9#4 then st == .rx
  else if w = 0xB#4 then rs
  else false

/-- The direction an accepted command latches (R120): with START from RS, else from the bus state. -/
def cmdDir (start rs : Bool) (st : CState) : Option Dir :=
  if start then some (if rs then .rx else .tx)
  else match st with
    | .tx => some .tx
    | .rx => some .rx
    | .idle => none
    | .hold => none

/-- The divisor (R161): floor(sysclk / (2 (SCL_LP + SCL_HP) target)) - 1, over the integers. -/
def divisor (sysclk target : Int) : Int :=
  sysclk / (2 * ((Config.sclLp + Config.sclHp : Nat) : Int) * target) - 1

/-- INIT's step I0 checks (R160, R162): positive operands, then a divisor from 1 to 127. -/
def clockOk (sysclk target : Int) : Bool :=
  1 ≤ sysclk && 1 ≤ target && 1 ≤ divisor sysclk target && divisor sysclk target ≤ 127

/-- The bus clock of a programmed divisor in the units of R164: f_SCL = sysclk / sclPeriod tpr. Timing only: no step
reads it. -/
def sclPeriod (tpr : Nat) : Nat := 2 * (Config.sclLp + Config.sclHp) * (tpr + 1)

/-- A transaction (OP 1 to 4), as against INIT. -/
def Op.isTxn : Op → Bool
  | .init => false
  | .writeOne => true
  | .readOne => true
  | .writeBurst => true
  | .readBurst => true

/-- A burst (OP 3 or 4). -/
def Op.isBurst : Op → Bool
  | .init => false
  | .writeOne => false
  | .readOne => false
  | .writeBurst => true
  | .readBurst => true

/-- The BadOperand checks of R170. -/
def operandsBad (maxBurst : Nat) (op : Op) (o : Operands) : Bool :=
  (Op.isTxn op && decide (0x7F < o.dev))
  || (Op.isTxn op && decide (0xFF < o.reg))
  || (op == .writeOne && decide (0xFF < o.val))
  || (Op.isBurst op && decide (maxBurst < o.n))
  || (op == .writeBurst && (o.wbuf.length != o.n || o.wbuf.any (fun b => decide (0xFF < b))))

/-- The request an operation's latches hold (R31), as HE records it (R28). -/
def latchedRequest (s : State) : Request :=
  match s.op with
  | .init => .init s.sysclk s.target
  | .writeOne => .writeOne s.dev s.reg s.val
  | .readOne => .readOne s.dev s.reg
  | .writeBurst => .writeBurst s.dev s.reg s.n s.wbuf
  | .readBurst => .readBurst s.dev s.reg s.n

/-- "latch op and its operands" (R170): the latches of the operation's own operands (log entry 25). -/
def latchRequest (op : Op) (o : Operands) (s : State) : State :=
  match op with
  | .init => { s with op := op, sysclk := o.sysclk, target := o.target }
  | .writeOne =>
    { s with op := op, dev := BitVec.ofNat 7 o.dev, reg := BitVec.ofNat 8 o.reg, val := BitVec.ofNat 8 o.val }
  | .readOne => { s with op := op, dev := BitVec.ofNat 7 o.dev, reg := BitVec.ofNat 8 o.reg }
  | .writeBurst =>
    { s with op := op, dev := BitVec.ofNat 7 o.dev, reg := BitVec.ofNat 8 o.reg, n := o.n, wbuf := o.wbuf.map (BitVec.ofNat 8) }
  | .readBurst => { s with op := op, dev := BitVec.ofNat 7 o.dev, reg := BitVec.ofNat 8 o.reg, n := o.n }

end Sys2Proof.Machine
end

