-- ==== Sys2Proof/Machine/Ops.lean ====
section
/-!
DEFINITION. The shared operations: drawing a free value (00_scope.md R10), raising a fault (60_exceptions.md R214), a
register access of either agent (40_register_access.md R100 to R108), accepting a command (41_bus_commands.md R120), and
accepting and finishing a request (43_engine.md R170, R171).
-/

namespace Sys2Proof.Machine

/-- `draw()`: the next free value (R10). DESIGN CHOICE in form only, log entry 4. -/
def draw (E : Env) (s : State) : Word × State := (E.free s.draws, { s with draws := s.draws + 1 })

/-- A drawn byte: the low 8 bits of a drawn word. -/
def drawByte (E : Env) (s : State) : Byte × State := ((draw E s).1.setWidth 8, (draw E s).2)

/-- `k` drawn bytes. -/
def drawBytes (E : Env) : Nat → State → List Byte × State
  | 0, s => ([], s)
  | k + 1, s => ((drawByte E s).1 :: (drawBytes E k (drawByte E s).2).1, (drawBytes E k (drawByte E s).2).2)

/-- A byte that is there, or a drawn one where the spec gives none (log entries 11 and 20). -/
def byteOrDraw (E : Env) (b : Option Byte) (s : State) : Byte × State :=
  match b with
  | some v => (v, s)
  | none => drawByte E s

/-- MDR left unspecified by a receive that received nothing (R124, R126, R129). -/
def unspecifyMdr (E : Env) (s : State) : State := { (drawByte E s).2 with mdr := some (drawByte E s).1 }

/-- TAKING A FAULT (R214): record `(reason, agent, the access or request)` and leave every other piece of state. That the
agent takes no further step is `stopped`. Log entry 3. -/
def raise (r : Fault) (a : Agent) (what : Input) (s : State) : State :=
  { s with faults := s.faults ++ [{ reason := r, agent := a, what := what }] }

/-- The agent has raised a fault, and "has no further step" (R214). -/
def stopped (a : Agent) (s : State) : Bool := s.faults.any (fun f => f.agent == a)

/-- Append a bus event to HB (R10, `emit`). -/
def emit (e : BusEvent) (s : State) : State := { s with hb := s.hb ++ [e] }

/-- Append an access to HR (R100). -/
def logAccess (a : Agent) (k : Kind) (r : Reg) (v : Word) (s : State) : State :=
  { s with hr := s.hr ++ [{ agent := a, kind := k, reg := r, value := v }] }

/-- The checks of R100 after BadAccess, in its order: EngineBusy for the host, then ReservedBits for a write. -/
def accessFault (a : Agent) (k : Kind) (data : Word) (s : State) : Option Fault :=
  if a = .host ∧ s.eact = true then some .engineBusy
  else if k = .wr ∧ upperClear data = false then some .reservedBits
  else none

/-- Why a register read faults (R105 to R108), in order. Unwritten is the spec's own: it resets the three registers to `none` and
names the fault of reading one (R213 code 14, R240, 90_conflicts.md C10). -/
def readFault (r : Reg) (s : State) : Option Fault :=
  match r with
  | .msa => if s.msa = none then some .unwritten else none
  | .mcs => none
  | .mdr => if s.busy then some .busyRead else if s.mdr = none then some .unwritten else none
  | .mtpr => if s.mtpr = none then some .unwritten else none

/-- The word a register read returns, from a drawn word (R105 to R108). -/
def readValue (drawn : Word) (r : Reg) (s : State) : Word :=
  match r with
  | .msa => padByte drawn (s.msa.getD (drawn.setWidth 8))
  | .mcs => statusWord drawn s
  | .mdr => padByte drawn (s.mdr.getD (drawn.setWidth 8))
  | .mtpr => padByte drawn (s.mtpr.getD (drawn.setWidth 8))

/-- Why accepting command word `w` faults (R120), in its order (R215); `none` when it is accepted. -/
def acceptFault (w : Byte) (s : State) : Option Fault :=
  if cmdReserved w then some .reservedCommand
  else if cmdStartBit w = true ∧ s.msa = none then some .unwritten
  else if admitted s.cstate (rsBit s.msa) (w.setWidth 4) = false then some .illegalCommand
  else if w.setWidth 4 = 0x4#4 ∧ s.cstate = .idle then none
  else if s.mtpr = none then some .unwritten
  else if cmdRunBit w = true ∧ cmdDir (cmdStartBit w) (rsBit s.msa) s.cstate = some .tx ∧ s.mdr = none then
    some .unwritten
  else none

/-- What an accepted word latches (R120). -/
def latchedPend (w : Byte) (s : State) : Pend :=
  { start := cmdStartBit w, stop := cmdStopBit w, run := cmdRunBit w, ack := cmdAckBit w,
    dir := cmdDir (cmdStartBit w) (rsBit s.msa) s.cstate, origin := s.cstate, addr := s.msa, data := s.mdr }

/-- The effect of accepting word `w` when no check faults (R120): a STOP in Idle only clears the latches (R133); any
other command clears them, is latched, and sets BUSY. -/
def acceptEffect (w : Byte) (s : State) : State :=
  if w.setWidth 4 = 0x4#4 ∧ s.cstate = .idle then clearLatches s
  else { clearLatches s with pend := some (latchedPend w s), busy := true }

/-- Why a register write of byte `b` faults (R101 to R104), in order. -/
def writeFault (r : Reg) (b : Byte) (s : State) : Option Fault :=
  if s.busy then some .busyWrite
  else match r with
    | .msa => none
    | .mcs => acceptFault b s
    | .mdr => none
    | .mtpr =>
      if s.cstate ≠ .idle then some .configWhileActive
      else if b.getLsbD 7 then some .reservedBits
      else if b.setWidth 7 = 0#7 then some .badDivisor
      else none

/-- The effect of a register write of byte `b` when no check faults (R101 to R104). -/
def writeEffect (r : Reg) (b : Byte) (s : State) : State :=
  match r with
  | .msa => { s with msa := some b }
  | .mcs => acceptEffect b s
  | .mdr => { s with mdr := some b }
  | .mtpr => { s with mtpr := some b }

/-- An access's result: a fault's name, or the word read with the state after. -/
inductive Access where
  | done (v : Word) (s : State)
  | faulted (r : Fault)
deriving DecidableEq, Repr

/-- A read of register `r` by agent `a` (R100, R105 to R108): its checks, the value, and HR. -/
def accessRead (E : Env) (a : Agent) (r : Reg) (s : State) : Access :=
  match accessFault a .rd 0#32 s with
  | some f => .faulted f
  | none =>
    match readFault r s with
    | some f => .faulted f
    | none =>
      .done (readValue (draw E s).1 r s) (logAccess a .rd r (readValue (draw E s).1 r s) (draw E s).2)

/-- A write of `data` to register `r` by agent `a` (R100 to R104): its checks, the effect, and HR. -/
def accessWrite (a : Agent) (r : Reg) (data : Word) (s : State) : Access :=
  match accessFault a .wr data s with
  | some f => .faulted f
  | none =>
    match writeFault r (data.setWidth 8) s with
    | some f => .faulted f
    | none => .done data (logAccess a .wr r data (writeEffect r (data.setWidth 8) s))

/-- The host's read of a register: one step, or its fault (R109, R214). -/
def hostRead (E : Env) (r : Reg) (s : State) : Host.Outcome State Fault Refusal :=
  match accessRead E .host r s with
  | .done _ t => .next t
  | .faulted f => .next (raise f .host (readInput r) s)

/-- The host's write of a register: one step, or its fault (R109, R214). -/
def hostWrite (r : Reg) (data : Word) (s : State) : Host.Outcome State Fault Refusal :=
  match accessWrite .host r data s with
  | .done _ t => .next t
  | .faulted f => .next (raise f .host (writeInput r data) s)

/-- The host issues command word `w`: the write of it to MCS, zero-extended (R10 `WR R, v`, R103). -/
def hostCommand (w : Byte) (s : State) : Host.Outcome State Fault Refusal := hostWrite .mcs (w.setWidth 32) s

/-- The result of the request that finishes with `st` (R171): on FAIL every byte is any value. Log entry 15. -/
def finishResult (E : Env) (st : Status) (s : State) : Result × State :=
  match s.op with
  | .init => (.status st, s)
  | .writeOne => (.status st, s)
  | .writeBurst => (.status st, s)
  | .readOne =>
    match st with
    | .ok => (.byte .ok s.rdata, s)
    | .fail => (.byte .fail (drawByte E s).1, (drawByte E s).2)
  | .readBurst =>
    match st with
    | .ok => (.bytes .ok (s.rbuf.take s.n), s)
    | .fail => (.bytes .fail (drawBytes E s.n s).1, (drawBytes E s.n s).2)

/-- `status <- st ; finish_request()` (R171). -/
def finishRequest (E : Env) (st : Status) (s : State) : State :=
  { (finishResult E st s).2 with
    status := st, estate := .idle, eact := false, done := true,
    he := s.he ++ [{ request := latchedRequest s, result := (finishResult E st s).1 }] }

/-- The result the host can read: that of the last finished request, from `done = 1` until the next request is accepted
(R171). -/
def hostResult (s : State) : Option Result :=
  if s.done then s.he.getLast?.map EngEvent.result else none

/-- Why a request faults at acceptance (R170), in its order; OP 5 to 7 are no `Op`: see `rejectedInput` in Fetch.lean. -/
def requestFault (E : Env) (op : Op) (o : Operands) (s : State) : Option Fault :=
  if s.eact then some .engineBusy
  else if operandsBad E.maxBurst op o then some .badOperand
  else if Op.isTxn op = true ∧ s.initDone = false then some .notInitialised
  else none

/-- The effect of accepting a request (R170): latch it, start the engine, and finish a burst of count zero at once. The
byte index at I0 and T0, which the spec gives none, is 0 (DESIGN CHOICE, log entry 29). -/
def acceptRequest (E : Env) (op : Op) (o : Operands) (s : State) : State :=
  let t := { latchRequest op o s with eact := true, done := false, estate := .idle }
  if Op.isBurst op = true ∧ o.n = 0 then finishRequest E .ok t
  else { t with epc := { label := if op = .init then .i0 else .t0, i := 0 } }

/-- The host submits a request: one step, or its fault (R170, R214). -/
def hostRequest (E : Env) (op : Op) (o : Operands) (s : State) : Host.Outcome State Fault Refusal :=
  match requestFault E op o s with
  | some f => .next (raise f .host (reqInput op o) s)
  | none => .next (acceptRequest E op o s)

end Sys2Proof.Machine
end

