-- ==== Sys2Proof/Machine/Controller.lean ====
section
/-!
DEFINITION. Layer C's completion step, with its phases against the oracle and its ACK/NACK handling (41_bus_commands.md
R122 to R130).
-/

namespace Sys2Proof.Machine

/-- `finish(st)` (R130): the bus state, BUSY off, the latch empty; the error latches keep their values. -/
def finishCommand (st : CState) (s : State) : State := { s with cstate := st, busy := false, pend := none }

/-- START_phase (R123): START from Idle, a repeated START where this master holds the bus. -/
def startPhase (origin : CState) (s : State) : State := emit (if origin = .idle then .start else .rstart) s

/-- ADDR_phase (R124): the oracle's answer to the address byte, recorded in HB. -/
def addrPhase (E : Env) (b : Byte) (s : State) : Answer × State :=
  (E.oracle.addr s.hb b, emit (.addr b (E.oracle.addr s.hb b)) s)

/-- TX_phase (R125): the oracle's answer to a transmitted byte, recorded in HB. -/
def txPhase (E : Env) (b : Byte) (s : State) : Answer × State :=
  (E.oracle.tx s.hb b, emit (.tx b (E.oracle.tx s.hb b)) s)

/-- The master's acknowledge of a received byte, from the command's ACK bit (R126, R128). -/
def masterAck (ack : Bool) : MasterAck := if ack then .ack else .nack

/-- RX_phase (R126): a received byte goes to MDR; on arbitration loss MDR is unspecified. The Bool says a byte was received. -/
def rxPhase (E : Env) (ack : Bool) (s : State) : Bool × State :=
  match E.oracle.rx s.hb (masterAck ack) with
  | .byte v => (true, emit (.rx v (masterAck ack)) { s with mdr := some v })
  | .arbLost => (false, emit .rxLost (unspecifyMdr E s))

/-- STOP_phase (R127), and the end of a command that has STOP. -/
def stopAndFinish (s : State) : State := finishCommand .idle (emit .stop s)

/-- The end of a command whose data phases ended in bus state `next`: with STOP the bus is released (R122). -/
def endCommand (stop : Bool) (next : CState) (s : State) : State :=
  if stop then stopAndFinish s else finishCommand next s

/-- `end_on_nack(c)` (R128): the command's own STOP is still generated; without one the bus is held. -/
def endOnNack (c : Pend) (s : State) : State := endCommand c.stop .hold s

/-- `lost(c)` (R129): ARBLST, MDR unspecified for a receive, Idle, and no STOP. -/
def lost (E : Env) (c : Pend) (s : State) : State :=
  if c.dir = some .rx then finishCommand .idle (unspecifyMdr E { s with arblst := true })
  else finishCommand .idle { s with arblst := true }

/-- An address NACK (R122): ADRACK, and MDR unspecified for a receive. -/
def addressNacked (E : Env) (c : Pend) (s : State) : State :=
  if c.dir = some .rx then endOnNack c (unspecifyMdr E { s with adrack := true })
  else endOnNack c { s with adrack := true }

/-- The transmit phase of a command and what follows it (R122, R125). -/
def txPart (E : Env) (c : Pend) (s : State) : State :=
  let b := byteOrDraw E c.data s
  let r := txPhase E b.1 b.2
  match r.1 with
  | .arbLost => lost E c r.2
  | .nack => endOnNack c { r.2 with datack := true }
  | .ack => endCommand c.stop .tx r.2

/-- The receive phase of a command and what follows it (R122, R126): Rx after the master's ACK, Hold after its NACK. -/
def rxPart (E : Env) (c : Pend) (s : State) : State :=
  let r := rxPhase E c.ack s
  if r.1 then endCommand c.stop (if c.ack then .rx else .hold) r.2 else lost E c r.2

/-- The data phase of a command, by its direction (R122). -/
def dataPart (E : Env) (c : Pend) (s : State) : State :=
  if c.dir = some .tx then txPart E c s else rxPart E c s

/-- START, the address byte, and what follows (R122, R123, R124). -/
def startPart (E : Env) (c : Pend) (s : State) : State :=
  let b := byteOrDraw E c.addr (startPhase c.origin s)
  let r := addrPhase E b.1 b.2
  match r.1 with
  | .arbLost => lost E c r.2
  | .nack => addressNacked E c r.2
  | .ack => dataPart E c r.2

/-- The phases of a pending command (R122, after the stall). -/
def runCommand (E : Env) (c : Pend) (s : State) : State :=
  if c.start = false ∧ c.run = false then stopAndFinish s
  else if c.start then startPart E c s
  else dataPart E c s

/-- The completion step, "enabled exactly when busy = 1" (R122). A stall changes nothing (R140). The latch is full
whenever BUSY is set (R26); were it empty, the controller would have no step (log entry 20). -/
def complete (E : Env) (s : State) : State :=
  if s.busy then
    match s.pend with
    | none => s
    | some c => if E.oracle.stall s.hb then s else runCommand E c s
  else s

end Sys2Proof.Machine
end

