-- ==== Sys2Proof/Machine/Engine.lean ====
section
/-!
DEFINITION. Layer E's steps (43_engine.md R172 to R179, 42_clock_config.md R160, 44_transactions.md R190 to R193): each
labelled line of the pseudocode is one step, "hold until" is no step, and an access that faults stops the engine (R214).
-/

namespace Sys2Proof.Machine

/-- `epc <- (l, i)` (R30). The spec writes `epc <- L` with no index at the labels outside a loop: the steps below then pass 0.
DESIGN CHOICE, log entry 29. -/
def goto (l : Label) (i : Nat) (s : State) : State := { s with epc := { label := l, i := i } }

/-- A write by the engine of byte `b`, zero-extended (R65), and what the same step does after it; a fault stops the engine. -/
def engineWrite (r : Reg) (b : Byte) (k : State → State) (s : State) : State :=
  match accessWrite .engine r (b.setWidth 32) s with
  | .done _ t => k t
  | .faulted f => raise f .engine (writeInput r (b.setWidth 32)) s

/-- A read by the engine, which uses bits 7:0 (R65), and what the same step does after it; a fault stops the engine. -/
def engineRead (E : Env) (r : Reg) (k : Byte → State → State) (s : State) : State :=
  match accessRead E .engine r s with
  | .done v t => k (v.setWidth 8) t
  | .faulted f => raise f .engine (readInput r) s

/-- `poll()` (R172): hold until BUSY = 0, then read the status word into `s`. -/
def poll (E : Env) (k : State → State) (s : State) : State :=
  if s.busy then s else engineRead E .mcs (fun v t => k { t with snap := v }) s

/-- `goto ABORT` on `err(s)`: estate is ERROR "from the detection of err(s)" (R177, R178). Log entry 13. -/
def toAbort (s : State) : State := goto .abort 0 { s with estate := .error }

/-- After a poll: the error path, or on. -/
def checkErr (k : State → State) (s : State) : State := if err s.snap then toAbort s else k s

/-- After the last command's poll: `status <- err(s) ? FAIL : OK ; finish_request()`. -/
def finishByErr (E : Env) (s : State) : State := finishRequest E (if err s.snap then .fail else .ok) s

/-- The issue of a command by the engine, with the transaction state it puts the engine in (R175, R178). -/
def engineCommand (w : Byte) (e : EState) (l : Label) (i : Nat) (s : State) : State :=
  engineWrite .mcs w (fun t => goto l i { t with estate := e }) s

/-- I0 (R160): the operand and divisor checks, then the divisor. A fault here is the request's. -/
def stepI0 (s : State) : State :=
  if clockOk s.sysclk s.target then
    goto .i1 0 { s with tpr := BitVec.ofInt 8 (divisor s.sysclk s.target) }
  else raise .clockOutOfRange .engine (reqInput .init { sysclk := s.sysclk, target := s.target }) s

/-- I1 (R160): hold until not busy, then write MTPR and finish. -/
def stepI1 (E : Env) (s : State) : State :=
  if s.busy then s
  else engineWrite .mtpr s.tpr (fun t => finishRequest E .ok { t with initDone := true }) s

/-- T0, the entry guard (R174). -/
def stepT0 (s : State) : State := if s.busy then s else goto .a1 0 s

/-- A1 to A4, the addressing phase (R176). -/
def stepA1 (s : State) : State := engineWrite .msa (saByte s.dev false) (goto .a2 0) s
def stepA2 (s : State) : State := engineWrite .mdr s.reg (goto .a3 0) s
def stepA3 (s : State) : State := engineCommand 0x03#8 .addrWritePending .a4 0 s

/-- The first step after the addressing phase (R190 to R193). INIT has none: that position is reached by no run, and the
engine holds there (log entry 20). -/
def afterAddressing (s : State) : State :=
  match s.op with
  | .init => s
  | .writeOne => goto .w1 0 s
  | .readOne => goto .r1 0 s
  | .writeBurst => if 1 < s.n then goto .b1 0 s else goto .b4 0 s
  | .readBurst => goto .q1 0 s

def stepA4 (E : Env) (s : State) : State :=
  poll E (checkErr (fun t => afterAddressing { t with estate := .addrWriteDone })) s

/-- ABORT, X1 and X2, the error path (R177). -/
def stepAbort (s : State) : State := goto .x1 0 { s with estate := .error }
def stepX1 (s : State) : State := engineCommand 0x04#8 .stopPending .x2 0 s
def stepX2 (E : Env) (s : State) : State := poll E (finishRequest E .fail) s

/-- WRITE_ONE (R190). -/
def stepW1 (s : State) : State := engineWrite .mdr s.val (goto .w2 0) s
def stepW2 (s : State) : State := engineCommand 0x05#8 .stopPending .w3 0 s
def stepW3 (E : Env) (s : State) : State := poll E (finishByErr E) s

/-- READ_ONE (R191). -/
def stepR1 (s : State) : State := engineWrite .msa (saByte s.dev true) (goto .r2 0) s
def stepR2 (s : State) : State := engineCommand 0x07#8 .stopPending .r3 0 s
def stepR3 (E : Env) (s : State) : State :=
  poll E (fun t => if err t.snap then finishRequest E .fail t else goto .r4 0 t) s
def stepR4 (E : Env) (s : State) : State :=
  engineRead E .mdr (fun v t => finishRequest E .ok { t with rdata := v }) s

/-- `WR MDR, wbuf[k]`. A position past the buffer is reached by no run: the byte is then a drawn one (log entry 20). -/
def writeBufByte (E : Env) (k : Nat) (l : Label) (i : Nat) (s : State) : State :=
  engineWrite .mdr (byteOrDraw E s.wbuf[k]? s).1 (goto l i) (byteOrDraw E s.wbuf[k]? s).2

/-- WRITE_BURST (R192): B1(i) to B3(i) for every byte but the last, then B4 to B6. -/
def stepB1 (E : Env) (s : State) : State := writeBufByte E s.epc.i .b2 s.epc.i s
def stepB2 (s : State) : State := engineCommand 0x01#8 .dataPending .b3 s.epc.i s
def stepB3 (E : Env) (s : State) : State :=
  poll E (checkErr (fun t => if t.epc.i + 2 < t.n then goto .b1 (t.epc.i + 1) t else goto .b4 0 t)) s
def stepB4 (E : Env) (s : State) : State := writeBufByte E (s.n - 1) .b5 0 s
def stepB5 (s : State) : State := engineCommand 0x05#8 .stopPending .b6 0 s
def stepB6 (E : Env) (s : State) : State := poll E (finishByErr E) s

/-- `rbuf[k] <- RD MDR [7:0]`, and what the same step does after it (R193). -/
def readToBuf (E : Env) (k : Nat) (next : State → State) (s : State) : State :=
  engineRead E .mdr (fun v t => next { t with rbuf := t.rbuf.set k v }) s

/-- READ_BURST (R193): Q1, then for n > 1 Q2 to Q4, M1(i) to M3(i) for the middle bytes and L1 to L3, for n = 1 S1 to S3. -/
def stepQ1 (s : State) : State :=
  engineWrite .msa (saByte s.dev true) (fun t => if t.n = 1 then goto .s1 0 t else goto .q2 0 t) s
def stepQ2 (s : State) : State := engineCommand 0x0B#8 .dataPending .q3 0 s
def stepQ3 (E : Env) (s : State) : State := poll E (checkErr (goto .q4 0)) s
def stepQ4 (E : Env) (s : State) : State :=
  readToBuf E 0 (fun t => if 2 < t.n then goto .m1 1 t else goto .l1 0 t) s
def stepM1 (s : State) : State := engineCommand 0x09#8 s.estate .m2 s.epc.i s
def stepM2 (E : Env) (s : State) : State := poll E (checkErr (fun t => goto .m3 t.epc.i t)) s
def stepM3 (E : Env) (s : State) : State :=
  readToBuf E s.epc.i (fun t => if t.epc.i + 2 < t.n then goto .m1 (t.epc.i + 1) t else goto .l1 0 t) s
def stepL1 (s : State) : State := engineCommand 0x05#8 .stopPending .l2 0 s
def stepL2 (E : Env) (s : State) : State := poll E (goto .l3 0) s
def stepL3 (E : Env) (s : State) : State := readToBuf E (s.n - 1) (finishByErr E) s
def stepS1 (s : State) : State := engineCommand 0x07#8 .stopPending .s2 0 s
def stepS2 (E : Env) (s : State) : State := poll E (goto .s3 0) s
def stepS3 (E : Env) (s : State) : State := readToBuf E 0 (finishByErr E) s

/-- The step at the engine's position (R179). -/
def engineAt (E : Env) (s : State) : State :=
  match s.epc.label with
  | .i0 => stepI0 s
  | .i1 => stepI1 E s
  | .t0 => stepT0 s
  | .a1 => stepA1 s
  | .a2 => stepA2 s
  | .a3 => stepA3 s
  | .a4 => stepA4 E s
  | .abort => stepAbort s
  | .x1 => stepX1 s
  | .x2 => stepX2 E s
  | .w1 => stepW1 s
  | .w2 => stepW2 s
  | .w3 => stepW3 E s
  | .r1 => stepR1 s
  | .r2 => stepR2 s
  | .r3 => stepR3 E s
  | .r4 => stepR4 E s
  | .b1 => stepB1 E s
  | .b2 => stepB2 s
  | .b3 => stepB3 E s
  | .b4 => stepB4 E s
  | .b5 => stepB5 s
  | .b6 => stepB6 E s
  | .q1 => stepQ1 s
  | .q2 => stepQ2 s
  | .q3 => stepQ3 E s
  | .q4 => stepQ4 E s
  | .m1 => stepM1 s
  | .m2 => stepM2 E s
  | .m3 => stepM3 E s
  | .l1 => stepL1 s
  | .l2 => stepL2 E s
  | .l3 => stepL3 E s
  | .s1 => stepS1 s
  | .s2 => stepS2 E s
  | .s3 => stepS3 E s

/-- The engine's step: none while it is idle (R32) or has raised a fault (R214). -/
def engineStep (E : Env) (s : State) : State :=
  if s.eact = true ∧ stopped .engine s = false then engineAt E s else s

end Sys2Proof.Machine
end

