-- ==== Sys2Proof/Machine/Acc.lean ====
section
/-!
DEFINITION. Family ACC: the host's eight register accesses (spec/40_register_access.md). The engine makes the same accesses
through `accessRead` and `accessWrite` (Engine.lean).
-/

namespace Sys2Proof.Machine

/-- RD MSA (R105). -/
def execRdMsa (s : State) : Host.Outcome State Fault Refusal := hostRead Config.env .msa s

/-- RD MCS, the status word (R107). -/
def execRdMcs (s : State) : Host.Outcome State Fault Refusal := hostRead Config.env .mcs s

/-- RD MDR (R106). -/
def execRdMdr (s : State) : Host.Outcome State Fault Refusal := hostRead Config.env .mdr s

/-- RD MTPR (R108). -/
def execRdMtpr (s : State) : Host.Outcome State Fault Refusal := hostRead Config.env .mtpr s

/-- WR MSA (R101). -/
def execWrMsa (data : Word) (s : State) : Host.Outcome State Fault Refusal := hostWrite .msa data s

/-- WR MCS, the issue of a command (R103, R120). -/
def execWrMcs (data : Word) (s : State) : Host.Outcome State Fault Refusal := hostWrite .mcs data s

/-- WR MDR (R102). -/
def execWrMdr (data : Word) (s : State) : Host.Outcome State Fault Refusal := hostWrite .mdr data s

/-- WR MTPR (R104). -/
def execWrMtpr (data : Word) (s : State) : Host.Outcome State Fault Refusal := hostWrite .mtpr data s

end Sys2Proof.Machine
end

