-- ==== Sys2Proof/Machine/Cmd.lean ====
section
/-!
DEFINITION. Family CMD: the seven commands (spec/41_bus_commands.md R131 to R137). A command is the MCS write that carries its
word: the host's step accepts it (R120), and the controller's own step completes it (R122: `complete` in Controller.lean),
where its phases run. Log entry 10.
-/

namespace Sys2Proof.Machine

/-- CMD_RUN (R131): one data phase, with no START and no STOP. -/
def execCmdRun (s : State) : Host.Outcome State Fault Refusal := hostCommand 0x01#8 s

/-- CMD_START_RUN (R132): START or RSTART, the address byte, one data phase. -/
def execCmdStartRun (s : State) : Host.Outcome State Fault Refusal := hostCommand 0x03#8 s

/-- CMD_STOP (R133): STOP; in Idle it completes in its accepting step. -/
def execCmdStop (s : State) : Host.Outcome State Fault Refusal := hostCommand 0x04#8 s

/-- CMD_STOP_RUN (R134): one data phase, then STOP. -/
def execCmdStopRun (s : State) : Host.Outcome State Fault Refusal := hostCommand 0x05#8 s

/-- CMD_START_STOP_RUN (R135): START or RSTART, the address byte, one data phase, then STOP. -/
def execCmdStartStopRun (s : State) : Host.Outcome State Fault Refusal := hostCommand 0x07#8 s

/-- CMD_RUN_ACK (R136): receive one byte and acknowledge it. -/
def execCmdRunAck (s : State) : Host.Outcome State Fault Refusal := hostCommand 0x09#8 s

/-- CMD_START_RUN_ACK (R137): START or RSTART, the address byte, receive one byte and acknowledge it. -/
def execCmdStartRunAck (s : State) : Host.Outcome State Fault Refusal := hostCommand 0x0B#8 s

end Sys2Proof.Machine
end

