-- ==== Sys2Proof/Machine/Txn.lean ====
section
/-!
DEFINITION. Families INIT and TXN: the five engine requests as the host submits them (43_engine.md R170). The host's step
accepts the request; the engine's own steps carry it out (`engineAt` in Engine.lean: INIT R160, WRITE_ONE R190, READ_ONE R191,
WRITE_BURST R192, READ_BURST R193). Also the legacy projection of READ_ONE, outside the block (44_transactions.md R194).
-/

namespace Sys2Proof.Machine

/-- INIT (R160): program the clock divisor. -/
def execInit (sysclk target : Int) (s : State) : Host.Outcome State Fault Refusal :=
  hostRequest Config.env .init { sysclk := sysclk, target := target } s

/-- WRITE_ONE (R190): write one byte to one device register. -/
def execWriteOne (dev reg val : Nat) (s : State) : Host.Outcome State Fault Refusal :=
  hostRequest Config.env .writeOne { dev := dev, reg := reg, val := val } s

/-- READ_ONE (R191): read one byte from one device register. -/
def execReadOne (dev reg : Nat) (s : State) : Host.Outcome State Fault Refusal :=
  hostRequest Config.env .readOne { dev := dev, reg := reg } s

/-- WRITE_BURST (R192): write n bytes to consecutive device registers. -/
def execWriteBurst (dev reg n : Nat) (wbuf : List Nat) (s : State) : Host.Outcome State Fault Refusal :=
  hostRequest Config.env .writeBurst { dev := dev, reg := reg, n := n, wbuf := wbuf } s

/-- READ_BURST (R193): read n bytes from consecutive device registers. -/
def execReadBurst (dev reg n : Nat) (s : State) : Host.Outcome State Fault Refusal :=
  hostRequest Config.env .readBurst { dev := dev, reg := reg, n := n } s

/-- The source's single-value form of READ_ONE's result, computed outside the block (R194). No step uses it. -/
def legacyByte (st : Status) (rdata : Byte) : Byte :=
  match st with
  | .ok => rdata
  | .fail => 0xFF#8

end Sys2Proof.Machine
end

