-- ==== Sys2Proof/Machine/Dispatch.lean ====
section
/-!
DEFINITION. One arm per constructor of Instr, each one direct call of its meaning: the host's move that the instruction is.
-/

namespace Sys2Proof.Machine

/-- The host's move (R7, R109, R170). -/
def exec (i : Instr) (s : State) : Host.Outcome State Fault Refusal :=
  match i with
  | .rdMsa => Sys2Proof.Machine.execRdMsa s
  | .rdMcs => Sys2Proof.Machine.execRdMcs s
  | .rdMdr => Sys2Proof.Machine.execRdMdr s
  | .rdMtpr => Sys2Proof.Machine.execRdMtpr s
  | .wrMsa data => Sys2Proof.Machine.execWrMsa data s
  | .wrMcs data => Sys2Proof.Machine.execWrMcs data s
  | .wrMdr data => Sys2Proof.Machine.execWrMdr data s
  | .wrMtpr data => Sys2Proof.Machine.execWrMtpr data s
  | .cmdRun => Sys2Proof.Machine.execCmdRun s
  | .cmdStartRun => Sys2Proof.Machine.execCmdStartRun s
  | .cmdStop => Sys2Proof.Machine.execCmdStop s
  | .cmdStopRun => Sys2Proof.Machine.execCmdStopRun s
  | .cmdStartStopRun => Sys2Proof.Machine.execCmdStartStopRun s
  | .cmdRunAck => Sys2Proof.Machine.execCmdRunAck s
  | .cmdStartRunAck => Sys2Proof.Machine.execCmdStartRunAck s
  | .init sysclk target => Sys2Proof.Machine.execInit sysclk target s
  | .writeOne dev reg val => Sys2Proof.Machine.execWriteOne dev reg val s
  | .readOne dev reg => Sys2Proof.Machine.execReadOne dev reg s
  | .writeBurst dev reg n wbuf => Sys2Proof.Machine.execWriteBurst dev reg n wbuf s
  | .readBurst dev reg n => Sys2Proof.Machine.execReadBurst dev reg n s

end Sys2Proof.Machine
end

