-- ==== Sys2Proof/Machine/Fetch.lean ====
section
/-!
DEFINITION. The host's step: its next input, decoded and run, and the faults of inputs that are no instruction
(40_register_access.md R100, 43_engine.md R170, 41_bus_commands.md R138); the schedule's advance. Log entries 1 and 2.
-/

namespace Sys2Proof.Machine

/-- The schedule gives the next turn (R70). -/
def advance (E : Env) (s : State) : State := { s with turn := E.schedule s.tick, tick := s.tick + 1 }

/-- An input that decodes to no instruction faults by its format: an access is BadAccess, R100's first check; a command
word is written to MCS and takes the first fault of R103 and R120; a request is EngineBusy or ReservedOp, R170's first two
checks. -/
def rejectedInput (inp : Input) (s : State) : Host.Outcome State Fault Refusal :=
  match inp with
  | .acc _ _ _ => .next (raise .badAccess .host inp s)
  | .cmd w => hostCommand w s
  | .req _ _ => .next (raise (if s.eact then .engineBusy else .reservedOp) .host inp s)

/-- One input of the host. -/
def runInput (inp : Input) (s : State) : Host.Outcome State Fault Refusal :=
  match decode inp with
  | .ok i => exec i s
  | .reject _ => rejectedInput inp s

/-- The host's step: none once it has faulted (R214) or while it has no input. -/
def hostStep (s : State) : Host.Outcome State Fault Refusal :=
  if stopped .host s then .next s
  else match s.hostQ with
    | [] => .next s
    | inp :: rest => runInput inp { s with hostQ := rest }

end Sys2Proof.Machine
end

