-- ==== Sys2Proof/Machine/Step.lean ====
section
/-!
DEFINITION. One step of the machine: the step of the agent whose turn it is (00_scope.md R7, 20_memory.md R70). An agent that
holds, is idle, or has faulted leaves the state as it is (R11), and the turn passes on.
-/

namespace Sys2Proof.Machine

/-- One step. The successor of the turn is the schedule's, a free value (log entry 1). -/
def step (s : State) : Host.Outcome State Fault Refusal :=
  match s.turn with
  | .host => hostStep (advance Config.env s)
  | .engine => .next (engineStep Config.env (advance Config.env s))
  | .controller => .next (complete Config.env (advance Config.env s))

/-- `s` with an opcode-table word as the host's next input and the host next to move, so that the very next step runs it
(log entries 2 and 18). A word of no format leaves `s` as it is. -/
def State.withFetchWord (s : State) (nbits w : Nat) : State :=
  match tableInput nbits w with
  | none => s
  | some inp => { s with hostQ := inp :: s.hostQ, turn := .host }

end Sys2Proof.Machine
end

