-- ==== Sys2Proof/Machine/RefDev.lean ====
section
/-!
DEFINITION. The reference device (41_bus_commands.md R142), "a test fixture, not part of the block": an oracle, computed from
the bus history alone as R139 requires. No step of the machine names it; tests and statements about a device do.
-/

namespace Sys2Proof.Machine

/-- A forced answer (R142, `inject`). -/
inductive Injected where
  | nack | arbLost
deriving DecidableEq, Repr

/-- RefDev's arguments: its address, the registers it starts with, and the forced answers by phase number, from 1. -/
structure RefDev where
  d0     : DevAddr
  regs   : Byte → Byte
  inject : List (Nat × Injected)

/-- The device's own state, and how many addr, tx and rx phases there have been. -/
structure DevState where
  regs      : Byte → Byte
  ptr       : Byte
  addressed : Bool
  writing   : Bool
  first     : Bool
  phases    : Nat

/-- The device before any event. R142 states first values for its registers only. DESIGN CHOICE, log entry 28: the pointer is 0,
the device is not addressed, its mode is R, `first` is off. -/
def RefDev.start (d : RefDev) : DevState :=
  { regs := d.regs, ptr := 0#8, addressed := false, writing := false, first := false, phases := 0 }

/-- The answer forced in phase `k`, if any. -/
def RefDev.forced (d : RefDev) (k : Nat) : Option Injected := d.inject.lookup k

/-- An address byte that names the device. -/
def RefDev.named (d : RefDev) (b : Byte) : Bool := b.extractLsb' 1 7 == d.d0

/-- The device's change of state at an event (R142). In a phase with a forced answer it does not change; a forced Nack
does not reach a receive phase, which has no Nack answer. -/
def RefDev.onEvent (d : RefDev) (v : DevState) (e : BusEvent) : DevState :=
  match e with
  | .start => { v with addressed := false }
  | .rstart => { v with addressed := false }
  | .stop => { v with addressed := false }
  | .addr b _ =>
    if (d.forced (v.phases + 1)).isSome then { v with phases := v.phases + 1 }
    else if d.named b then
      { v with phases := v.phases + 1, addressed := true, writing := !b.getLsbD 0, first := true }
    else { v with phases := v.phases + 1 }
  | .tx b _ =>
    if (d.forced (v.phases + 1)).isSome then { v with phases := v.phases + 1 }
    else if v.addressed && v.writing then
      if v.first then { v with phases := v.phases + 1, ptr := b, first := false }
      else
        { v with phases := v.phases + 1, ptr := v.ptr + 1#8, regs := fun a => if a = v.ptr then b else v.regs a }
    else { v with phases := v.phases + 1 }
  | .rx _ _ =>
    if v.addressed && !v.writing then { v with phases := v.phases + 1, ptr := v.ptr + 1#8 }
    else { v with phases := v.phases + 1 }
  | .rxLost => { v with phases := v.phases + 1 }

/-- The device after a bus history. -/
def RefDev.after (d : RefDev) (hb : List BusEvent) : DevState := hb.foldl d.onEvent d.start

/-- The answer to an address byte (R142). -/
def RefDev.addr (d : RefDev) (hb : List BusEvent) (b : Byte) : Answer :=
  match d.forced ((d.after hb).phases + 1) with
  | some .nack => .nack
  | some .arbLost => .arbLost
  | none => if d.named b then .ack else .nack

/-- The answer to a transmitted byte (R142). R142 states none for a device addressed for reading, which the block never
transmits to: it is Nack here (DESIGN CHOICE, log entry 28). -/
def RefDev.tx (d : RefDev) (hb : List BusEvent) (_ : Byte) : Answer :=
  match d.forced ((d.after hb).phases + 1) with
  | some .nack => .nack
  | some .arbLost => .arbLost
  | none => if (d.after hb).addressed && (d.after hb).writing then .ack else .nack

/-- The byte of a receive phase (R142): the register pointed at, or 0xFF where the device is not addressed and the line is
released. R142 states none for a device addressed for writing: it is 0xFF here too, and the pointer stays (DESIGN CHOICE, log
entry 28). -/
def RefDev.rx (d : RefDev) (hb : List BusEvent) (_ : MasterAck) : RxAnswer :=
  if d.forced ((d.after hb).phases + 1) = some .arbLost then .arbLost
  else if (d.after hb).addressed && !(d.after hb).writing then .byte ((d.after hb).regs (d.after hb).ptr)
  else .byte 0xFF#8

/-- The device as an oracle: it never stalls (R142). -/
def RefDev.oracle (d : RefDev) : Oracle :=
  { addr := d.addr, tx := d.tx, rx := d.rx, stall := fun _ => false }

end Sys2Proof.Machine
end

