-- ==== Sys2Proof/Machine/Run.lean ====
section
/-!
DEFINITION. Runs of one request, for statements and tests that speak of a whole transaction: the schedule in which the controller
completes whatever is pending and the engine moves otherwise. `step` allows every schedule; this is one of them.
-/

namespace Sys2Proof.Machine

/-- One round: the controller's step while a command is in flight, the engine's otherwise. -/
def oneRound (E : Env) (s : State) : State := if s.busy then complete E s else engineStep E s

/-- `k` rounds. -/
def rounds (E : Env) : Nat → State → State
  | 0, s => s
  | k + 1, s => rounds E k (oneRound E s)

end Sys2Proof.Machine
end

