-- ==== Sys2Proof/Safety.lean ====
section
/-!
DEFINITION. The terms in which statements speak of runs: faulted and final states (43_engine.md R182, 60_exceptions.md R214), and
the invariants of the controller (41_bus_commands.md) and of the engine at each of its positions (43_engine.md R178, 44_transactions.md R195).
-/

namespace Sys2Proof.Machine

/-- No fault is recorded (R214: "A state with a fault recorded is never final"). -/
def unfaulted (s : State) : Bool := s.faults.isEmpty

/-- A final state (R182): the engine idle, nothing in flight, no fault, and no further move of the host. -/
def final (s : State) : Bool := !s.eact && !s.busy && unfaulted s && s.hostQ.isEmpty

/-- What a pending command is, from its acceptance to its completion (R120, R121): it was admitted in the state it finds,
what it will send was held, and the error latches are clear. -/
structure PendOk (c : Pend) (s : State) : Prop where
  origin  : c.origin = s.cstate
  /-- no write of MSA or MDR is admitted while busy (R101, R102) -/
  latched : c.addr = s.msa ∧ c.data = s.mdr
  noError : errorFlag s = false
  clock   : s.mtpr ≠ none
  started : c.start = true → c.run = true ∧ c.addr ≠ none ∧ c.dir = some (if rsBit c.addr then .rx else .tx)
  going   : c.start = false → c.run = true → (s.cstate = .tx ∧ c.dir = some .tx) ∨ (s.cstate = .rx ∧ c.dir = some .rx)
  stopOnly : c.run = false → c.stop = true ∧ c.ack = false ∧ s.cstate ≠ .idle
  sends   : c.run = true → c.dir = some .tx → c.data ≠ none
  acks    : c.ack = true → c.dir = some .rx ∧ c.stop = false

/-- A command in flight with these fields, if any is in flight. -/
def Awaits (start stop ack : Bool) (dir : Dir) (s : State) : Prop :=
  ∀ c, s.pend = some c → c.start = start ∧ c.stop = stop ∧ c.run = true ∧ c.ack = ack ∧ c.dir = some dir

/-- A CMD_STOP in flight, if any command is. -/
def AwaitsStop (s : State) : Prop := ∀ c, s.pend = some c → c.start = false ∧ c.stop = true ∧ c.run = false

/-- After a command without STOP: the bus state of a clean completion, or one an error leaves (R128, R129). -/
def Landed (clean : CState) (s : State) : Prop :=
  if errorFlag s then s.cstate = .hold ∨ s.cstate = .idle else s.cstate = clean

/-- The engine holds the bus in `st`, with nothing in flight and no error. -/
def Holding (st : CState) (s : State) : Prop := s.busy = false ∧ s.cstate = st ∧ errorFlag s = false

/-- What stands at each position of the engine: the transaction state of R178, and what makes the position's own access
legal (R195.4: "the command is admitted"). -/
def EngineAtOk (s : State) : Prop :=
  match s.epc.label with
  | .i0 => s.op = .init ∧ s.estate = .idle
  | .i1 => s.op = .init ∧ s.estate = .idle ∧ legalTpr s.tpr = true
  | .t0 => s.estate = .idle
  | .a1 => s.estate = .idle ∧ s.busy = false
  | .a2 => s.estate = .idle ∧ s.busy = false ∧ s.msa = some (saByte s.dev false)
  | .a3 => s.estate = .idle ∧ s.busy = false ∧ s.msa = some (saByte s.dev false) ∧ s.mdr = some s.reg
  | .a4 => s.estate = .addrWritePending ∧ Awaits true false false .tx s ∧ (s.busy = false → Landed .tx s)
  | .abort => s.estate = .error ∧ s.busy = false
  | .x1 => s.estate = .error ∧ s.busy = false
  | .x2 => s.estate = .stopPending ∧ AwaitsStop s ∧ (s.busy = false → s.cstate = .idle)
  | .w1 => s.op = .writeOne ∧ s.estate = .addrWriteDone ∧ Holding .tx s
  | .w2 => s.op = .writeOne ∧ s.estate = .addrWriteDone ∧ Holding .tx s ∧ s.mdr = some s.val
  | .w3 => s.op = .writeOne ∧ s.estate = .stopPending ∧ Awaits false true false .tx s ∧ (s.busy = false → s.cstate = .idle)
  | .r1 => s.op = .readOne ∧ s.estate = .addrWriteDone ∧ Holding .tx s
  | .r2 => s.op = .readOne ∧ s.estate = .addrWriteDone ∧ Holding .tx s ∧ s.msa = some (saByte s.dev true)
  | .r3 =>
    s.op = .readOne ∧ s.estate = .stopPending ∧ Awaits true true false .rx s
      ∧ (s.busy = false → s.cstate = .idle ∧ s.mdr ≠ none)
  | .r4 => s.op = .readOne ∧ s.estate = .stopPending ∧ Holding .idle s ∧ s.mdr ≠ none
  | .b1 =>
    s.op = .writeBurst ∧ s.epc.i + 1 < s.n ∧ (s.estate = .addrWriteDone ∨ s.estate = .dataPending) ∧ Holding .tx s
  | .b2 =>
    s.op = .writeBurst ∧ s.epc.i + 1 < s.n ∧ (s.estate = .addrWriteDone ∨ s.estate = .dataPending) ∧ Holding .tx s
      ∧ s.mdr = s.wbuf[s.epc.i]?
  | .b3 =>
    s.op = .writeBurst ∧ s.epc.i + 1 < s.n ∧ s.estate = .dataPending ∧ Awaits false false false .tx s
      ∧ (s.busy = false → Landed .tx s)
  | .b4 => s.op = .writeBurst ∧ (s.estate = .addrWriteDone ∨ s.estate = .dataPending) ∧ Holding .tx s
  | .b5 =>
    s.op = .writeBurst ∧ (s.estate = .addrWriteDone ∨ s.estate = .dataPending) ∧ Holding .tx s
      ∧ s.mdr = s.wbuf[s.n - 1]?
  | .b6 => s.op = .writeBurst ∧ s.estate = .stopPending ∧ Awaits false true false .tx s ∧ (s.busy = false → s.cstate = .idle)
  | .q1 => s.op = .readBurst ∧ s.estate = .addrWriteDone ∧ Holding .tx s
  | .q2 => s.op = .readBurst ∧ 1 < s.n ∧ s.estate = .addrWriteDone ∧ Holding .tx s ∧ s.msa = some (saByte s.dev true)
  | .q3 =>
    s.op = .readBurst ∧ 1 < s.n ∧ s.estate = .dataPending ∧ Awaits true false true .rx s
      ∧ (s.busy = false → Landed .rx s ∧ s.mdr ≠ none)
  | .q4 => s.op = .readBurst ∧ 1 < s.n ∧ s.estate = .dataPending ∧ Holding .rx s ∧ s.mdr ≠ none
  | .m1 => s.op = .readBurst ∧ s.epc.i + 1 < s.n ∧ s.estate = .dataPending ∧ Holding .rx s
  | .m2 =>
    s.op = .readBurst ∧ s.epc.i + 1 < s.n ∧ s.estate = .dataPending ∧ Awaits false false true .rx s
      ∧ (s.busy = false → Landed .rx s ∧ s.mdr ≠ none)
  | .m3 => s.op = .readBurst ∧ s.epc.i + 1 < s.n ∧ s.estate = .dataPending ∧ Holding .rx s ∧ s.mdr ≠ none
  | .l1 => s.op = .readBurst ∧ 1 < s.n ∧ s.estate = .dataPending ∧ Holding .rx s
  | .l2 =>
    s.op = .readBurst ∧ s.estate = .stopPending ∧ Awaits false true false .rx s
      ∧ (s.busy = false → s.cstate = .idle ∧ s.mdr ≠ none)
  | .l3 => s.op = .readBurst ∧ s.estate = .stopPending ∧ s.busy = false ∧ s.cstate = .idle ∧ s.mdr ≠ none
  | .s1 => s.op = .readBurst ∧ s.n = 1 ∧ s.estate = .addrWriteDone ∧ Holding .tx s ∧ s.msa = some (saByte s.dev true)
  | .s2 =>
    s.op = .readBurst ∧ s.estate = .stopPending ∧ Awaits true true false .rx s
      ∧ (s.busy = false → s.cstate = .idle ∧ s.mdr ≠ none)
  | .s3 => s.op = .readBurst ∧ s.estate = .stopPending ∧ s.busy = false ∧ s.cstate = .idle ∧ s.mdr ≠ none

/-- At most one of ADRACK, DATACK and ARBLST is set (R216). -/
def OneLatch (s : State) : Prop :=
  (s.adrack && s.datack) = false ∧ (s.adrack && s.arblst) = false ∧ (s.datack && s.arblst) = false

/-- The machine's invariant, for a given MAX_BURST. `Inv` says what no run leaves: it holds after reset and every step keeps it. -/
structure Inv (maxBurst : Nat) (s : State) : Prop where
  /-- BUSY is set exactly while a command is latched (R26) -/
  busyPend : s.busy = s.pend.isSome
  pendOk : ∀ c, s.pend = some c → PendOk c s
  oneLatch : OneLatch s
  /-- MTPR holds only a legal divisor (R24) -/
  legalClock : ∀ v, s.mtpr = some v → legalTpr v = true
  /-- the bus is held only after a command, which needed MSA and MTPR (R120) -/
  held : s.cstate ≠ .idle → s.msa ≠ none ∧ s.mtpr ≠ none
  /-- "While eact = 0, estate = IDLE" (R32) -/
  idleEngine : s.eact = false → s.estate = .idle
  /-- init_done is set by INIT, which writes MTPR (R160) -/
  initClock : s.initDone = true → s.mtpr ≠ none
  /-- rbuf has MAX_BURST bytes (R32) -/
  rbufSize : s.rbuf.length = maxBurst
  /-- n is at most MAX_BURST, and a latched burst has its n bytes (R31) -/
  count : s.n ≤ maxBurst
  wbufSize : s.op = .writeBurst → s.wbuf.length = s.n
  /-- a running transaction was admitted after INIT, a running burst has a byte to move (R170) -/
  running : s.eact = true → (Op.isTxn s.op = true → s.initDone = true) ∧ (Op.isBurst s.op = true → 1 ≤ s.n)
  /-- outside INIT's two steps a transaction runs -/
  txn : s.eact = true → s.op = .init → s.epc.label = .i0 ∨ s.epc.label = .i1
  engine : s.eact = true → EngineAtOk s

end Sys2Proof.Machine
end

