-- ==== Sys2Proof/Certificates/Slice0/Obligations.lean ====
section
/-!
DEFINITION. The statements for the provers, each from the numbered rules of spec/. A statement about a next state is an equation,
so that what it does not name is unchanged. Where a rule leaves a value open (a draw), the statement leaves it open too.
-/

open Sys2Proof Sys2Proof.Machine

/-! ### Terms the statements share -/

/-- Bits 31:8 of a data word are 0 (R65). -/
def Sys2Proof.Machine.reservedClear (d : Word) : Prop := d.extractLsb' 8 24 = 0#24

/-- The state an accepted command leaves (R120): latches cleared, BUSY, the pending record, and the MCS write in HR. -/
def Sys2Proof.Machine.issued (w : Byte) (start stop run ack : Bool) (dir : Option Dir) (s : State) : State :=
  { s with
    adrack := false, datack := false, arblst := false, busy := true,
    pend := some { start := start, stop := stop, run := run, ack := ack, dir := dir, origin := s.cstate, addr := s.msa, data := s.mdr },
    hr := s.hr ++ [{ agent := .host, kind := .wr, reg := .mcs, value := w.setWidth 32 }] }

/-- The state a completion leaves (R130): not busy, no pending command, bus state `st`, these events added to HB. -/
def Sys2Proof.Machine.settledAs (a : State) (st : CState) (events : List BusEvent) : State :=
  { a with busy := false, pend := none, cstate := st, hb := a.hb ++ events }

/-- The events and the bus state that end a command with or without STOP (R122, R127). -/
def Sys2Proof.Machine.endEvents (stop : Bool) : List BusEvent := if stop then [.stop] else []
def Sys2Proof.Machine.endState (stop : Bool) (st : CState) : CState := if stop then .idle else st

/-- START from Idle, else a repeated START (R123). -/
def Sys2Proof.Machine.startEvent (st : CState) : BusEvent := if st = .idle then .start else .rstart

/-- `t` is `u`, but for MDR, which holds some value (a draw), and the count of draws (R124, R126, R129). -/
def Sys2Proof.Machine.sameButMdr (t u : State) : Prop := t = { u with mdr := t.mdr, draws := t.draws } ∧ t.mdr ≠ none

/-- Nothing keeps the host from an access or the engine from a request: no request runs, no command is in flight. -/
def Sys2Proof.Machine.quiet (s : State) : Prop := s.eact = false ∧ s.busy = false

/-! ### Encoding -/

/-- Decode and encode agree, for all twenty instructions at every operand (R81, R83, R86): decoding an encoding gives the
instruction back, and an input that decodes to an instruction carries that instruction's own format and opcode bits, and a
write its data. -/
def Obligations.DecodeAndEncodeAgree : Prop :=
  (∀ i : Instr, decode (encode i) = .ok i) ∧
  (∀ (bits : BitVec 13) (width : Nat) (data : Word) (i : Instr), decode (.acc bits width data) = .ok i →
    width = 4 ∧ ∃ d : Word, encode i = .acc bits 4 d ∧ (bits.getLsbD 12 = true → d = data)) ∧
  (∀ (w : Byte) (i : Instr), decode (.cmd w) = .ok i → encode i = .cmd w) ∧
  (∀ (op : BitVec 3) (o : Operands) (i : Instr), decode (.req op o) = .ok i → ∃ u : Operands, encode i = .req op u)

/-- R81: of all 13-bit patterns exactly the table's eight are accesses, and only at width 4 (R65); a read's data word is
ignored, a write's is its operand. -/
def Obligations.EightAccessPatterns : Prop :=
  ∀ (bits : BitVec 13) (width : Nat) (data : Word),
    decode (.acc bits width data) =
      if width = 4 ∧ bits = 0x0000#13 then .ok .rdMsa
      else if width = 4 ∧ bits = 0x0004#13 then .ok .rdMcs
      else if width = 4 ∧ bits = 0x0008#13 then .ok .rdMdr
      else if width = 4 ∧ bits = 0x000C#13 then .ok .rdMtpr
      else if width = 4 ∧ bits = 0x1000#13 then .ok (.wrMsa data)
      else if width = 4 ∧ bits = 0x1004#13 then .ok (.wrMcs data)
      else if width = 4 ∧ bits = 0x1008#13 then .ok (.wrMdr data)
      else if width = 4 ∧ bits = 0x100C#13 then .ok (.wrMtpr data)
      else .reject .badAccess

/-- R83, R87: a command word is reserved exactly when bits 7:4 are not 0; else it is one of seven, or illegal. -/
def Obligations.CommandWordsDecode : Prop :=
  ∀ w : Byte,
    decode (.cmd w) =
      if w.extractLsb' 4 4 ≠ 0#4 then .reject .reservedCommand
      else if w = 0x01#8 then .ok .cmdRun
      else if w = 0x03#8 then .ok .cmdStartRun
      else if w = 0x04#8 then .ok .cmdStop
      else if w = 0x05#8 then .ok .cmdStopRun
      else if w = 0x07#8 then .ok .cmdStartStopRun
      else if w = 0x09#8 then .ok .cmdRunAck
      else if w = 0x0B#8 then .ok .cmdStartRunAck
      else .reject .illegalCommand

/-- R86: OP 0 to 4 select the five requests, with their own operands; 5 to 7 are reserved. -/
def Obligations.RequestOpsDecode : Prop :=
  ∀ o : Operands,
    decode (.req 0#3 o) = .ok (.init o.sysclk o.target) ∧
    decode (.req 1#3 o) = .ok (.writeOne o.dev o.reg o.val) ∧
    decode (.req 2#3 o) = .ok (.readOne o.dev o.reg) ∧
    decode (.req 3#3 o) = .ok (.writeBurst o.dev o.reg o.n o.wbuf) ∧
    decode (.req 4#3 o) = .ok (.readBurst o.dev o.reg o.n) ∧
    ∀ op : BitVec 3, 5 ≤ op.toNat → decode (.req op o) = .reject .reservedOp

/-- A few words of spec/95_test_vectors.md's programs decode to what they stand for. -/
def Obligations.SampleWordsDecode : Prop :=
  decode (.acc 0x100C#13 4 0x00000007#32) = .ok (.wrMtpr 0x07#32) ∧
  decode (.acc 0x1000#13 4 0x000000D0#32) = .ok (.wrMsa 0xD0#32) ∧
  decode (.acc 0x0004#13 4 0#32) = .ok .rdMcs ∧
  decode (.cmd 0x0B#8) = .ok .cmdStartRunAck ∧
  decode (.req 1#3 { dev := 0x68, reg := 0x6B, val := 0x00 }) = .ok (.writeOne 0x68 0x6B 0x00)

/-- R82, R20: the address byte is dev * 2 + rs, its bit 0 the direction; RS = 0 makes a command with START transmit, RS = 1
makes it receive. -/
def Obligations.AddressByteIsDeviceAndDirection : Prop :=
  ∀ (dev : DevAddr) (rs : Bool) (st : CState),
    (saByte dev rs).toNat = dev.toNat * 2 + rs.toNat ∧
    (saByte dev rs).extractLsb' 1 7 = dev ∧
    (saByte dev rs).getLsbD 0 = rs ∧
    cmdDir true (rsBit (some (saByte dev rs))) st = some (if rs then .rx else .tx)

/-! ### The step and reset -/

/-- When it is the host's turn and its next input decodes to an instruction, the step is that instruction's, on the state
with the input taken and the turn passed on by the schedule. The queue of inputs and the turn are the model's choice (log
entries 1 and 2), made of R7 and R70. -/
def Obligations.StepRunsDecodedInstruction : Prop :=
  ∀ (s : State) (inp : Input) (rest : List Input) (i : Instr),
    s.turn = .host → stopped .host s = false → s.hostQ = inp :: rest → decode inp = .ok i →
    step s = exec i { s with hostQ := rest, turn := Config.schedule s.tick, tick := s.tick + 1 }

/-- The engine's and the controller's turns are their own steps (R7), with the turn passed on. The turn is the model's choice (log entry
1), made of R70. -/
def Obligations.StepRunsTheTurn : Prop :=
  ∀ s : State,
    (s.turn = .engine →
      step s = .next (engineStep Config.env { s with turn := Config.schedule s.tick, tick := s.tick + 1 })) ∧
    (s.turn = .controller →
      step s = .next (complete Config.env { s with turn := Config.schedule s.tick, tick := s.tick + 1 }))

/-- R100, R170, R215: an access that is none of the eight faults BadAccess, even while the engine runs; a request with a
reserved OP faults EngineBusy while the engine runs, else ReservedOp. -/
def Obligations.RejectedInputsFault : Prop :=
  (∀ (s : State) (bits : BitVec 13) (width : Nat) (data : Word), decode (.acc bits width data) = .reject .badAccess →
    runInput (.acc bits width data) s = .next (raise .badAccess .host (.acc bits width data) s)) ∧
  (∀ (s : State) (op : BitVec 3) (o : Operands), 5 ≤ op.toNat →
    runInput (.req op o) s = .next (raise (if s.eact then .engineBusy else .reservedOp) .host (.req op o) s))

/-- R240: the values the spec gives after reset. -/
def Obligations.ResetValues : Prop :=
  State.reset.msa = none ∧ State.reset.mdr = none ∧ State.reset.mtpr = none ∧
  State.reset.busy = false ∧ State.reset.adrack = false ∧ State.reset.datack = false ∧ State.reset.arblst = false ∧
  State.reset.cstate = .idle ∧ State.reset.pend = none ∧
  State.reset.hb = [] ∧ State.reset.hr = [] ∧ State.reset.he = [] ∧
  State.reset.estate = .idle ∧ State.reset.done = false ∧ State.reset.eact = false ∧ State.reset.initDone = false ∧
  State.reset.faults = []

/-! ### Register accesses (family ACC) -/

/-- R101: WR MSA writes bits 7:0 to MSA whatever the bus state; its faults, in order, are EngineBusy, ReservedBits, BusyWrite. -/
def Obligations.WrMsaWrites : Prop :=
  (∀ d : Word, decode (.acc 0x1000#13 4 d) = .ok (.wrMsa d)) ∧
  (∀ (d : Word) (s : State), s.eact = false → reservedClear d → s.busy = false →
    exec (.wrMsa d) s = .next { s with
      msa := some (d.setWidth 8), hr := s.hr ++ [{ agent := .host, kind := .wr, reg := .msa, value := d }] }) ∧
  (∀ (d : Word) (s : State), s.eact = true → exec (.wrMsa d) s = .next (raise .engineBusy .host (writeInput .msa d) s)) ∧
  (∀ (d : Word) (s : State), s.eact = false → ¬ reservedClear d →
    exec (.wrMsa d) s = .next (raise .reservedBits .host (writeInput .msa d) s)) ∧
  (∀ (d : Word) (s : State), s.eact = false → reservedClear d → s.busy = true →
    exec (.wrMsa d) s = .next (raise .busyWrite .host (writeInput .msa d) s))

/-- R102: WR MDR writes bits 7:0 to MDR; its faults, in order, are EngineBusy, ReservedBits, BusyWrite. -/
def Obligations.WrMdrWrites : Prop :=
  (∀ d : Word, decode (.acc 0x1008#13 4 d) = .ok (.wrMdr d)) ∧
  (∀ (d : Word) (s : State), s.eact = false → reservedClear d → s.busy = false →
    exec (.wrMdr d) s = .next { s with
      mdr := some (d.setWidth 8), hr := s.hr ++ [{ agent := .host, kind := .wr, reg := .mdr, value := d }] }) ∧
  (∀ (d : Word) (s : State), s.eact = true → exec (.wrMdr d) s = .next (raise .engineBusy .host (writeInput .mdr d) s)) ∧
  (∀ (d : Word) (s : State), s.eact = false → ¬ reservedClear d →
    exec (.wrMdr d) s = .next (raise .reservedBits .host (writeInput .mdr d) s)) ∧
  (∀ (d : Word) (s : State), s.eact = false → reservedClear d → s.busy = true →
    exec (.wrMdr d) s = .next (raise .busyWrite .host (writeInput .mdr d) s))

/-- R104, R251: WR MTPR writes a divisor from 1 to 127 only when not busy and Idle; its faults, in order, are EngineBusy,
ReservedBits, BusyWrite, ConfigWhileActive, ReservedBits (HS), BadDivisor. -/
def Obligations.WrMtprWrites : Prop :=
  (∀ d : Word, decode (.acc 0x100C#13 4 d) = .ok (.wrMtpr d)) ∧
  (∀ (d : Word) (s : State), s.eact = false → reservedClear d → s.busy = false → s.cstate = .idle →
    d.getLsbD 7 = false → d.setWidth 7 ≠ 0#7 →
    exec (.wrMtpr d) s = .next { s with
      mtpr := some (d.setWidth 8), hr := s.hr ++ [{ agent := .host, kind := .wr, reg := .mtpr, value := d }] }) ∧
  (∀ (d : Word) (s : State),
    (s.eact = true ∨ ¬ reservedClear d ∨ s.busy = true ∨ s.cstate ≠ .idle ∨ d.getLsbD 7 = true ∨ d.setWidth 7 = 0#7) →
    exec (.wrMtpr d) s = .next (raise
      (if s.eact then .engineBusy
       else if d.extractLsb' 8 24 ≠ 0#24 then .reservedBits
       else if s.busy then .busyWrite
       else if s.cstate ≠ .idle then .configWhileActive
       else if d.getLsbD 7 then .reservedBits
       else .badDivisor) .host (writeInput .mtpr d) s))

/-- R105: RD MSA returns MSA in bits 7:0, busy or not, bits 31:8 drawn, and changes nothing but HR; it faults EngineBusy, then
Unwritten. -/
def Obligations.RdMsaReads : Prop :=
  (decode (.acc 0x0000#13 4 0#32) = .ok .rdMsa) ∧
  (∀ (s : State) (v : Byte), s.eact = false → s.msa = some v →
    exec .rdMsa s = .next { s with
      draws := s.draws + 1
      hr := s.hr ++ [{ agent := .host, kind := .rd, reg := .msa
                       value := (Config.freeWord s.draws &&& 0xFFFFFF00#32) ||| v.setWidth 32 }] }) ∧
  (∀ s : State, s.eact = true → exec .rdMsa s = .next (raise .engineBusy .host (readInput .msa) s)) ∧
  (∀ s : State, s.eact = false → s.msa = none → exec .rdMsa s = .next (raise .unwritten .host (readInput .msa) s))

/-- R106: RD MDR returns MDR in bits 7:0 when not busy, bits 31:8 drawn, and changes nothing but HR; it faults EngineBusy, then
BusyRead, then Unwritten. -/
def Obligations.RdMdrReads : Prop :=
  (decode (.acc 0x0008#13 4 0#32) = .ok .rdMdr) ∧
  (∀ (s : State) (v : Byte), s.eact = false → s.busy = false → s.mdr = some v →
    exec .rdMdr s = .next { s with
      draws := s.draws + 1
      hr := s.hr ++ [{ agent := .host, kind := .rd, reg := .mdr
                       value := (Config.freeWord s.draws &&& 0xFFFFFF00#32) ||| v.setWidth 32 }] }) ∧
  (∀ s : State, s.eact = true → exec .rdMdr s = .next (raise .engineBusy .host (readInput .mdr) s)) ∧
  (∀ s : State, s.eact = false → s.busy = true → exec .rdMdr s = .next (raise .busyRead .host (readInput .mdr) s)) ∧
  (∀ s : State, s.eact = false → s.busy = false → s.mdr = none →
    exec .rdMdr s = .next (raise .unwritten .host (readInput .mdr) s))

/-- R108: RD MTPR returns MTPR in bits 7:0, busy or not, bits 31:8 drawn, and changes nothing but HR; it faults EngineBusy,
then Unwritten. -/
def Obligations.RdMtprReads : Prop :=
  (decode (.acc 0x000C#13 4 0#32) = .ok .rdMtpr) ∧
  (∀ (s : State) (v : Byte), s.eact = false → s.mtpr = some v →
    exec .rdMtpr s = .next { s with
      draws := s.draws + 1
      hr := s.hr ++ [{ agent := .host, kind := .rd, reg := .mtpr
                       value := (Config.freeWord s.draws &&& 0xFFFFFF00#32) ||| v.setWidth 32 }] }) ∧
  (∀ s : State, s.eact = true → exec .rdMtpr s = .next (raise .engineBusy .host (readInput .mtpr) s)) ∧
  (∀ s : State, s.eact = false → s.mtpr = none → exec .rdMtpr s = .next (raise .unwritten .host (readInput .mtpr) s))

/-- R107, R23: RD MCS returns the status word and changes nothing but HR: bit 0 is BUSY; when not busy bits 1 to 4 are ERROR,
ADRACK, DATACK and ARBLST; the other bits are any value. It faults only EngineBusy. -/
def Obligations.RdMcsReadsStatus : Prop :=
  (decode (.acc 0x0004#13 4 0#32) = .ok .rdMcs) ∧
  (∀ s : State, s.eact = false →
    ∃ v : Word,
      exec .rdMcs s = .next { s with
        draws := s.draws + 1, hr := s.hr ++ [{ agent := .host, kind := .rd, reg := .mcs, value := v }] } ∧
      v.getLsbD 0 = s.busy ∧
      (s.busy = false →
        v.getLsbD 1 = (s.adrack || s.datack || s.arblst) ∧ v.getLsbD 2 = s.adrack ∧ v.getLsbD 3 = s.datack ∧
        v.getLsbD 4 = s.arblst)) ∧
  (∀ s : State, s.eact = true → exec .rdMcs s = .next (raise .engineBusy .host (readInput .mcs) s))

/-- R103: an MCS write of a command word is that command; while busy it faults BusyWrite; its example, 0x03 in Idle with
MSA = m, RS = 0, latches the transmit. -/
def Obligations.WrMcsIssuesTheCommand : Prop :=
  (∀ d : Word, decode (.acc 0x1004#13 4 d) = .ok (.wrMcs d)) ∧
  (∀ (w : Byte) (i : Instr) (s : State), decode (.cmd w) = .ok i → exec (.wrMcs (w.setWidth 32)) s = exec i s) ∧
  (∀ (s : State) (m b p : Byte), quiet s → s.cstate = .idle → s.msa = some m → m.getLsbD 0 = false → s.mdr = some b →
    s.mtpr = some p →
    exec (.wrMcs 0x03#32) s = .next (issued 0x03#8 true false true false (some .tx) s)) ∧
  (∀ (d : Word) (s : State), s.eact = true → exec (.wrMcs d) s = .next (raise .engineBusy .host (writeInput .mcs d) s)) ∧
  (∀ (d : Word) (s : State), s.eact = false → ¬ reservedClear d →
    exec (.wrMcs d) s = .next (raise .reservedBits .host (writeInput .mcs d) s)) ∧
  (∀ (d : Word) (s : State), s.eact = false → reservedClear d → s.busy = true →
    exec (.wrMcs d) s = .next (raise .busyWrite .host (writeInput .mcs d) s))

/-! ### Commands (family CMD) -/

/-- R121: the cells of the admission table that show a result. -/
def Obligations.AdmissionTable : Prop :=
  ∀ (st : CState) (rs : Bool) (w : BitVec 4),
    admitted st rs w = true ↔
      ((w = 0x1#4 ∨ w = 0x5#4) ∧ (st = .tx ∨ st = .rx)) ∨ w = 0x3#4 ∨ w = 0x4#4 ∨ w = 0x7#4 ∨ (w = 0x9#4 ∧ st = .rx)
        ∨ (w = 0xB#4 ∧ rs = true)

/-- R120, R138, R215: why an MCS write faults when not busy, in the order of the checks, and that it then changes nothing else.
That a missing MSA is found before an illegal word with START is DEDUCED from R120's order (log entry 12). -/
def Obligations.CommandFaultOrder : Prop :=
  ∀ (w : Byte) (s : State), quiet s →
    let start := w.getLsbD 1
    let rs := rsBit s.msa
    let transmits := w.getLsbD 0 = true ∧ ((start = true ∧ rs = false) ∨ (start = false ∧ s.cstate = .tx))
    let stopInIdle := w = 0x04#8 ∧ s.cstate = .idle
    let fault (r : Fault) := exec (.wrMcs (w.setWidth 32)) s = .next (raise r .host (writeInput .mcs (w.setWidth 32)) s)
    (w.extractLsb' 4 4 ≠ 0#4 → fault .reservedCommand) ∧
    (w.extractLsb' 4 4 = 0#4 → start = true → s.msa = none → fault .unwritten) ∧
    (w.extractLsb' 4 4 = 0#4 → (start = true → s.msa ≠ none) → admitted s.cstate rs (w.setWidth 4) = false →
      fault .illegalCommand) ∧
    (w.extractLsb' 4 4 = 0#4 → (start = true → s.msa ≠ none) → admitted s.cstate rs (w.setWidth 4) = true →
      ¬ stopInIdle → (s.mtpr = none ∨ (transmits ∧ s.mdr = none)) → fault .unwritten)

/-- A command that transmits without START (R131, R134): accepted in Tx with MDR and MTPR written, and its completion for each
answer of the oracle. -/
def Sys2Proof.Machine.transmits (i : Instr) (w : Byte) (stop : Bool) : Prop :=
  ∀ (E : Env) (s : State) (b p : Byte), quiet s → s.cstate = .tx → s.mdr = some b → s.mtpr = some p →
    exec i s = .next (issued w false stop true false (some .tx) s) ∧
    (E.oracle.stall s.hb = false →
      let a := issued w false stop true false (some .tx) s
      (E.oracle.tx s.hb b = .ack →
        complete E a = settledAs a (endState stop .tx) (.tx b .ack :: endEvents stop)) ∧
      (E.oracle.tx s.hb b = .nack →
        complete E a = { settledAs a (endState stop .hold) (.tx b .nack :: endEvents stop) with datack := true }) ∧
      (E.oracle.tx s.hb b = .arbLost →
        complete E a = { settledAs a .idle [.tx b .arbLost] with arblst := true }))

/-- R131, R134, in Tx: CMD_RUN and CMD_STOP_RUN send MDR; STOP is generated on Ack and Nack, not after arbitration loss. -/
def Obligations.RunAndStopRunTransmit : Prop :=
  transmits .cmdRun 0x01#8 false ∧ transmits .cmdStopRun 0x05#8 true

/-- A command that receives without START (R131, R134, R136): accepted in Rx, and its completion: a byte goes to MDR and the
master drives `ack`; on arbitration loss MDR is unspecified. -/
def Sys2Proof.Machine.receives (i : Instr) (w : Byte) (stop ack : Bool) : Prop :=
  ∀ (E : Env) (s : State) (p : Byte), quiet s → s.cstate = .rx → s.mtpr = some p →
    exec i s = .next (issued w false stop true ack (some .rx) s) ∧
    (E.oracle.stall s.hb = false →
      let a := issued w false stop true ack (some .rx) s
      let m : MasterAck := if ack then .ack else .nack
      (∀ v : Byte, E.oracle.rx s.hb m = .byte v →
        complete E a = { settledAs a (endState stop (if ack then .rx else .hold)) (.rx v m :: endEvents stop) with mdr := some v }) ∧
      (E.oracle.rx s.hb m = .arbLost →
        sameButMdr (complete E a) { settledAs a .idle [.rxLost] with arblst := true }))

/-- R131, R134, R136, in Rx: CMD_RUN and CMD_STOP_RUN receive one byte and NACK it, CMD_RUN_ACK receives one and acknowledges it. -/
def Obligations.RunCommandsReceive : Prop :=
  receives .cmdRun 0x01#8 false false ∧ receives .cmdStopRun 0x05#8 true false ∧ receives .cmdRunAck 0x09#8 false true

/-- A command with START and RS = 0 (R132, R135): accepted in every bus state, and its completion for each answer. -/
def Sys2Proof.Machine.startTransmits (i : Instr) (w : Byte) (stop : Bool) : Prop :=
  ∀ (E : Env) (s : State) (m b p : Byte), quiet s → s.msa = some m → m.getLsbD 0 = false → s.mdr = some b → s.mtpr = some p →
    exec i s = .next (issued w true stop true false (some .tx) s) ∧
    (E.oracle.stall s.hb = false →
      let a := issued w true stop true false (some .tx) s
      let started := s.hb ++ [startEvent s.cstate]
      let addressed := started ++ [.addr m .ack]
      (E.oracle.addr started m = .nack →
        complete E a = { settledAs a (endState stop .hold) (startEvent s.cstate :: .addr m .nack :: endEvents stop) with
          adrack := true }) ∧
      (E.oracle.addr started m = .arbLost →
        complete E a = { settledAs a .idle [startEvent s.cstate, .addr m .arbLost] with arblst := true }) ∧
      (E.oracle.addr started m = .ack → E.oracle.tx addressed b = .ack →
        complete E a =
          settledAs a (endState stop .tx) (startEvent s.cstate :: .addr m .ack :: .tx b .ack :: endEvents stop)) ∧
      (E.oracle.addr started m = .ack → E.oracle.tx addressed b = .nack →
        complete E a = { settledAs a (endState stop .hold)
          (startEvent s.cstate :: .addr m .ack :: .tx b .nack :: endEvents stop) with datack := true }) ∧
      (E.oracle.addr started m = .ack → E.oracle.tx addressed b = .arbLost →
        complete E a = { settledAs a .idle [startEvent s.cstate, .addr m .ack, .tx b .arbLost] with arblst := true }))

/-- R132, R135 with RS = 0: CMD_START_RUN and CMD_START_STOP_RUN send the address byte and then MDR; after an address NACK no
data byte is sent. -/
def Obligations.StartCommandsTransmit : Prop :=
  startTransmits .cmdStartRun 0x03#8 false ∧ startTransmits .cmdStartStopRun 0x07#8 true

/-- A command with START and RS = 1 (R132, R135, R137): accepted in every bus state, MDR written or not, and its completion. -/
def Sys2Proof.Machine.startReceives (i : Instr) (w : Byte) (stop ack : Bool) : Prop :=
  ∀ (E : Env) (s : State) (m p : Byte), quiet s → s.msa = some m → m.getLsbD 0 = true → s.mtpr = some p →
    exec i s = .next (issued w true stop true ack (some .rx) s) ∧
    (E.oracle.stall s.hb = false →
      let a := issued w true stop true ack (some .rx) s
      let k : MasterAck := if ack then .ack else .nack
      let started := s.hb ++ [startEvent s.cstate]
      let addressed := started ++ [.addr m .ack]
      (E.oracle.addr started m = .nack →
        sameButMdr (complete E a) { settledAs a (endState stop .hold)
          (startEvent s.cstate :: .addr m .nack :: endEvents stop) with adrack := true }) ∧
      (E.oracle.addr started m = .arbLost →
        sameButMdr (complete E a) { settledAs a .idle [startEvent s.cstate, .addr m .arbLost] with arblst := true }) ∧
      (∀ v : Byte, E.oracle.addr started m = .ack → E.oracle.rx addressed k = .byte v →
        complete E a = { settledAs a (endState stop (if ack then .rx else .hold))
          (startEvent s.cstate :: .addr m .ack :: .rx v k :: endEvents stop) with mdr := some v }) ∧
      (E.oracle.addr started m = .ack → E.oracle.rx addressed k = .arbLost →
        sameButMdr (complete E a)
          { settledAs a .idle [startEvent s.cstate, .addr m .ack, .rxLost] with arblst := true }))

/-- R132, R135, R137 with RS = 1: the three commands with START receive one byte; CMD_START_RUN_ACK acknowledges it. -/
def Obligations.StartCommandsReceive : Prop :=
  startReceives .cmdStartRun 0x03#8 false false ∧ startReceives .cmdStartStopRun 0x07#8 true false ∧
    startReceives .cmdStartRunAck 0x0B#8 false true

/-- R133: CMD_STOP. In Idle it clears the latches in its accepting step, with no bus event and no BUSY; where the bus is held
it is latched and completes with STOP in Idle. The direction latched there (tx in Tx, rx in Rx, none in Hold) is the model's
reading of R120's expression, against its comment (log entry 26, DEDUCED); no phase of the command uses it. -/
def Obligations.CmdStopReleasesTheBus : Prop :=
  (decode (.cmd 0x04#8) = .ok .cmdStop) ∧
  (∀ s : State, quiet s → s.cstate = .idle →
    exec .cmdStop s = .next { s with
      adrack := false, datack := false, arblst := false
      hr := s.hr ++ [{ agent := .host, kind := .wr, reg := .mcs, value := 0x04#32 }] }) ∧
  (∀ (E : Env) (s : State) (p : Byte), quiet s → s.cstate ≠ .idle → s.mtpr = some p →
    let dir : Option Dir := if s.cstate = .tx then some .tx else if s.cstate = .rx then some .rx else none
    let a := issued 0x04#8 false true false false dir s
    exec .cmdStop s = .next a ∧ (E.oracle.stall s.hb = false → complete E a = settledAs a .idle [.stop]))

/-- R121, R131, R134, R136, R137: where the four commands that are not admitted everywhere fault IllegalCommand. -/
def Obligations.CommandsIllegalOutsideTheirStates : Prop :=
  ∀ s : State, quiet s →
    ((s.cstate = .idle ∨ s.cstate = .hold) →
      exec .cmdRun s = .next (raise .illegalCommand .host (writeInput .mcs 0x01#32) s) ∧
      exec .cmdStopRun s = .next (raise .illegalCommand .host (writeInput .mcs 0x05#32) s)) ∧
    (s.cstate ≠ .rx → exec .cmdRunAck s = .next (raise .illegalCommand .host (writeInput .mcs 0x09#32) s)) ∧
    (∀ m : Byte, s.msa = some m → m.getLsbD 0 = false →
      exec .cmdStartRunAck s = .next (raise .illegalCommand .host (writeInput .mcs 0x0B#32) s))

/-- R140: while the oracle stalls, the completion step changes nothing. -/
def Obligations.StallChangesNothing : Prop :=
  ∀ (E : Env) (s : State), E.oracle.stall s.hb = true → complete E s = s

/-- R122, R130, R213: a completion step changes only MDR, the bus state, BUSY, the latch, the error latches, HB and the count
of draws; so it never faults and never touches MSA, MTPR, HR, HE or the engine. -/
def Obligations.CompletionFrame : Prop :=
  ∀ (E : Env) (s : State),
    let t := complete E s
    t = { s with
      mdr := t.mdr, cstate := t.cstate, busy := t.busy, pend := t.pend, adrack := t.adrack, datack := t.datack,
      arblst := t.arblst, hb := t.hb, draws := t.draws }

/-! ### Faults -/

/-- R214 over all twenty instructions: a host's step either adds one record of the host's to the fault record and changes
nothing else, or leaves the fault record as it was; it never stops the machine. -/
def Obligations.HostFaultsHaveNoOtherEffect : Prop :=
  ∀ (i : Instr) (s : State),
    ∃ t : State, exec i s = .next t ∧
      (t.faults = s.faults ∨
        ∃ (r : Fault) (what : Input), t = { s with faults := s.faults ++ [{ reason := r, agent := .host, what := what }] })

/-- R72, R100, R170, R246: while a request runs, every instruction of the host faults EngineBusy; and every input of the host
that is no instruction faults EngineBusy, or BadAccess where it is an access that is none of the eight (R100's first check). Nothing
else changes. -/
def Obligations.HostCannotDisturbARequest : Prop :=
  (∀ (i : Instr) (s : State), s.eact = true → ∃ what : Input, exec i s = .next (raise .engineBusy .host what s)) ∧
  (∀ (inp : Input) (s : State), s.eact = true →
    ∃ (r : Fault) (what : Input), runInput inp s = .next (raise r .host what s) ∧
      (r = .engineBusy ∨ (r = .badAccess ∧ decode inp = .reject .badAccess)))

/-- R214: an agent that has raised a fault takes no further step, and stays so. -/
def Obligations.FaultedAgentTakesNoStep : Prop :=
  (∀ (E : Env) (s : State), stopped .engine s = true → engineStep E s = s) ∧
  (∀ s : State, stopped .host s = true → hostStep s = .next s) ∧
  (∀ (a : Agent) (s t : State), step s = .next t → stopped a s = true → stopped a t = true)

/-- R28, R214: HB, HR, HE and the fault record only grow. -/
def Obligations.HistoriesOnlyGrow : Prop :=
  ∀ s t : State, step s = .next t → s.hb <+: t.hb ∧ s.hr <+: t.hr ∧ s.he <+: t.he ∧ s.faults <+: t.faults

/-! ### Frames over the whole machine -/

/-- R109, R170: what no step of the host changes: the bus state, HB, the engine's working registers, the schedule; and which
instructions alone change each register of the window, the pending command, and the engine's state and request latches. -/
def Obligations.HostStepFrame : Prop :=
  ∀ (i : Instr) (s t : State), exec i s = .next t →
    t.cstate = s.cstate ∧ t.hb = s.hb ∧ t.snap = s.snap ∧ t.tpr = s.tpr ∧ t.rbuf = s.rbuf ∧ t.rdata = s.rdata ∧
    t.initDone = s.initDone ∧ t.hostQ = s.hostQ ∧ t.turn = s.turn ∧ t.tick = s.tick ∧
    (t.msa ≠ s.msa → ∃ d, i = .wrMsa d) ∧ (t.mdr ≠ s.mdr → ∃ d, i = .wrMdr d) ∧ (t.mtpr ≠ s.mtpr → ∃ d, i = .wrMtpr d) ∧
    (t.pend ≠ s.pend ∨ t.busy ≠ s.busy ∨ t.adrack ≠ s.adrack ∨ t.datack ≠ s.datack ∨ t.arblst ≠ s.arblst →
      (∃ d, i = .wrMcs d) ∨ i = .cmdRun ∨ i = .cmdStartRun ∨ i = .cmdStop ∨ i = .cmdStopRun ∨ i = .cmdStartStopRun ∨
        i = .cmdRunAck ∨ i = .cmdStartRunAck) ∧
    (t.eact ≠ s.eact ∨ t.op ≠ s.op ∨ t.dev ≠ s.dev ∨ t.reg ≠ s.reg ∨ t.val ≠ s.val ∨ t.n ≠ s.n ∨ t.wbuf ≠ s.wbuf ∨
        t.sysclk ≠ s.sysclk ∨ t.target ≠ s.target ∨ t.estate ≠ s.estate ∨ t.epc ≠ s.epc ∨ t.status ≠ s.status ∨
        t.done ≠ s.done ∨ t.he ≠ s.he →
      (∃ a b, i = .init a b) ∨ (∃ a b c, i = .writeOne a b c) ∨ (∃ a b, i = .readOne a b) ∨
        (∃ a b c d, i = .writeBurst a b c d) ∨ (∃ a b c, i = .readBurst a b c))

/-- R7, R179: what no step of the engine changes: the bus state, HB and the host's side; and the request latches, which are
written only at acceptance (R31). MTPR and init_done change only at INIT's step I1 (R160). A fault of the engine is recorded with
nothing else of the spec's state changed (R214). -/
def Obligations.EngineStepFrame : Prop :=
  ∀ (E : Env) (s : State),
    let t := engineStep E s
    t.cstate = s.cstate ∧ t.hb = s.hb ∧ t.hostQ = s.hostQ ∧ t.turn = s.turn ∧ t.tick = s.tick ∧
    t.op = s.op ∧ t.dev = s.dev ∧ t.reg = s.reg ∧ t.val = s.val ∧ t.n = s.n ∧ t.wbuf = s.wbuf ∧
    t.sysclk = s.sysclk ∧ t.target = s.target ∧
    (t.mtpr ≠ s.mtpr ∨ t.initDone ≠ s.initDone → s.epc.label = .i1) ∧
    (t.faults = s.faults ∨
      ∃ (r : Fault) (what : Input),
        t = { s with faults := s.faults ++ [{ reason := r, agent := .engine, what := what }], draws := t.draws })

/-! ### Clock configuration (INIT) -/

/-- R161: the divisor is floor(sysclk / (20 target)) - 1, over the integers. -/
def Obligations.DivisorFormula : Prop :=
  ∀ sysclk target : Int, 1 ≤ target →
    divisor sysclk target = sysclk / (2 * (6 + 4) * target) - 1 ∧
    20 * target * (divisor sysclk target + 1) ≤ sysclk ∧ sysclk < 20 * target * (divisor sysclk target + 2)

/-- R160 (step I0), R162, for every sysclk and target: a running, unfaulted engine at I0 goes on to I1 with the divisor exactly when
both operands are positive and 40 target ≤ sysclk < 2580 target; else it raises ClockOutOfRange and writes nothing. -/
def Obligations.ClockRange : Prop :=
  ∀ (E : Env) (s : State), s.eact = true → stopped .engine s = false → s.epc.label = .i0 →
    let t := engineStep E s
    (1 ≤ s.sysclk ∧ 1 ≤ s.target ∧ 40 * s.target ≤ s.sysclk ∧ s.sysclk < 2580 * s.target →
      1 ≤ divisor s.sysclk s.target ∧ divisor s.sysclk s.target ≤ 127 ∧
      t = { s with tpr := BitVec.ofInt 8 (divisor s.sysclk s.target), epc := t.epc } ∧ t.epc.label = .i1) ∧
    (s.sysclk < 1 ∨ s.target < 1 ∨ s.sysclk < 40 * s.target ∨ 2580 * s.target ≤ s.sysclk →
      t = raise .clockOutOfRange .engine (reqInput .init { sysclk := s.sysclk, target := s.target }) s)

/-- R164: the bus never runs below the target, and runs at it exactly when 20 target divides sysclk. -/
def Obligations.BusClockNeverBelowTarget : Prop :=
  ∀ (sysclk target : Int), clockOk sysclk target = true →
    target * (sclPeriod (divisor sysclk target).toNat : Int) ≤ sysclk ∧
    (target * (sclPeriod (divisor sysclk target).toNat : Int) = sysclk ↔ 20 * target ∣ sysclk)

/-- R160: INIT as the host submits it, then its two engine steps from a quiet Idle block: MTPR holds the divisor, init_done is
set, the result is OK, no bus event. The byte index of epc is left open (log entry 29). The two steps are two `rounds`; while not
busy only the engine moves, so the schedule matters only in that the host makes no access between them (log entry 1). -/
def Obligations.InitProgramsTheClock : Prop :=
  (∀ (sysclk target : Int) (s : State), s.eact = false →
    ∃ k : Nat, exec (.init sysclk target) s = .next { s with
      op := .init, sysclk := sysclk, target := target, eact := true, done := false, estate := .idle
      epc := { label := .i0, i := k } }) ∧
  (∀ (E : Env) (s : State), s.eact = true → stopped .engine s = false → s.busy = false → s.cstate = .idle → s.op = .init →
    s.epc.label = .i0 → clockOk s.sysclk s.target = true →
    let tpr := BitVec.ofInt 8 (divisor s.sysclk s.target)
    let t := rounds E 2 s
    t = { s with
      tpr := tpr, mtpr := some tpr, initDone := true, status := .ok, done := true, eact := false, estate := .idle
      epc := t.epc
      hr := s.hr ++ [{ agent := .engine, kind := .wr, reg := .mtpr, value := tpr.setWidth 32 }]
      he := s.he ++ [{ request := .init s.sysclk s.target, result := .status .ok }] }) ∧
  (∀ (E : Env) (s : State), s.eact = true → stopped .engine s = false → s.epc.label = .i1 →
    (s.busy = true → engineStep E s = s) ∧
    (s.busy = false → s.cstate ≠ .idle →
      engineStep E s = raise .configWhileActive .engine (writeInput .mtpr (s.tpr.setWidth 32)) s))

/-- R163: a second INIT with the same operands writes the same value and changes nothing but the histories. Each runs its two
steps on the schedule `rounds` (log entry 1). -/
def Obligations.InitIsIdempotent : Prop :=
  ∀ (E : Env) (s : State) (sysclk target : Int),
    s.eact = false → stopped .engine s = false → s.busy = false → s.cstate = .idle → clockOk sysclk target = true →
    let request := acceptRequest E .init { sysclk := sysclk, target := target }
    let once := rounds E 2 (request s)
    let twice := rounds E 2 (request once)
    twice = { once with hr := twice.hr, he := twice.he }

/-! ### Requests and transactions -/

/-- R170: when the five requests fault, and with what, in the order of the checks. -/
def Obligations.RequestFaultOrder : Prop :=
  ∀ s : State,
    (∀ sysclk target : Int, s.eact = true →
      exec (.init sysclk target) s =
        .next (raise .engineBusy .host (.req 0#3 { sysclk := sysclk, target := target }) s)) ∧
    (∀ dev reg val : Nat,
      let bad := 0x7F < dev ∨ 0xFF < reg ∨ 0xFF < val
      s.eact = true ∨ bad ∨ s.initDone = false →
      exec (.writeOne dev reg val) s =
        .next (raise (if s.eact then .engineBusy else if bad then .badOperand else .notInitialised) .host
          (.req 1#3 { dev := dev, reg := reg, val := val }) s)) ∧
    (∀ dev reg : Nat,
      let bad := 0x7F < dev ∨ 0xFF < reg
      s.eact = true ∨ bad ∨ s.initDone = false →
      exec (.readOne dev reg) s =
        .next (raise (if s.eact then .engineBusy else if bad then .badOperand else .notInitialised) .host
          (.req 2#3 { dev := dev, reg := reg }) s)) ∧
    (∀ (dev reg n : Nat) (wbuf : List Nat),
      let bad := 0x7F < dev ∨ 0xFF < reg ∨ Config.maxBurst < n ∨ wbuf.length ≠ n ∨ ∃ b ∈ wbuf, 0xFF < b
      s.eact = true ∨ bad ∨ s.initDone = false →
      (s.eact = true →
        exec (.writeBurst dev reg n wbuf) s =
          .next (raise .engineBusy .host (.req 3#3 { dev := dev, reg := reg, n := n, wbuf := wbuf }) s)) ∧
      (s.eact = false → bad →
        exec (.writeBurst dev reg n wbuf) s =
          .next (raise .badOperand .host (.req 3#3 { dev := dev, reg := reg, n := n, wbuf := wbuf }) s)) ∧
      (s.eact = false → ¬ bad →
        exec (.writeBurst dev reg n wbuf) s =
          .next (raise .notInitialised .host (.req 3#3 { dev := dev, reg := reg, n := n, wbuf := wbuf }) s))) ∧
    (∀ dev reg n : Nat,
      let bad := 0x7F < dev ∨ 0xFF < reg ∨ Config.maxBurst < n
      s.eact = true ∨ bad ∨ s.initDone = false →
      exec (.readBurst dev reg n) s =
        .next (raise (if s.eact then .engineBusy else if bad then .badOperand else .notInitialised) .host
          (.req 4#3 { dev := dev, reg := reg, n := n }) s))

/-- R170, R190, R191: WRITE_ONE and READ_ONE are accepted when the engine is idle, INIT has run and the operands fit: the
operands are latched and the engine stands at T0. The byte index of epc is left open there (log entry 29). -/
def Obligations.SingleByteRequestsAccepted : Prop :=
  ∀ (dev : DevAddr) (reg val : Byte) (s : State), s.eact = false → s.initDone = true →
    (∃ k : Nat, exec (.writeOne dev.toNat reg.toNat val.toNat) s = .next { s with
      op := .writeOne, dev := dev, reg := reg, val := val
      eact := true, done := false, estate := .idle, epc := { label := .t0, i := k } }) ∧
    (∃ k : Nat, exec (.readOne dev.toNat reg.toNat) s = .next { s with
      op := .readOne, dev := dev, reg := reg
      eact := true, done := false, estate := .idle, epc := { label := .t0, i := k } })

/-- R170, R192, R193: WRITE_BURST and READ_BURST of 1 to MAX_BURST bytes are accepted in the same way. -/
def Obligations.BurstRequestsAccepted : Prop :=
  ∀ (dev : DevAddr) (reg : Byte) (bytes : List Byte) (s : State), s.eact = false → s.initDone = true →
    1 ≤ bytes.length → bytes.length ≤ Config.maxBurst →
    (∃ k : Nat, exec (.writeBurst dev.toNat reg.toNat bytes.length (bytes.map BitVec.toNat)) s = .next { s with
      op := .writeBurst, dev := dev, reg := reg, n := bytes.length, wbuf := bytes
      eact := true, done := false, estate := .idle, epc := { label := .t0, i := k } }) ∧
    (∃ k : Nat, exec (.readBurst dev.toNat reg.toNat bytes.length) s = .next { s with
      op := .readBurst, dev := dev, reg := reg, n := bytes.length
      eact := true, done := false, estate := .idle, epc := { label := .t0, i := k } })

/-- R170, D23: a burst of count zero finishes OK at acceptance, with no register access and no bus event. -/
def Obligations.CountZeroBurstsFinishAtOnce : Prop :=
  ∀ (dev : DevAddr) (reg : Byte) (s : State), s.eact = false → s.initDone = true →
    exec (.writeBurst dev.toNat reg.toNat 0 []) s = .next { s with
      op := .writeBurst, dev := dev, reg := reg, n := 0, wbuf := []
      eact := false, done := true, estate := .idle, status := .ok
      he := s.he ++ [{ request := .writeBurst dev reg 0 [], result := .status .ok }] } ∧
    exec (.readBurst dev.toNat reg.toNat 0) s = .next { s with
      op := .readBurst, dev := dev, reg := reg, n := 0
      eact := false, done := true, estate := .idle, status := .ok
      he := s.he ++ [{ request := .readBurst dev reg 0, result := .bytes .ok [] }] }

/-- R173: the error test reads bits 1 and 4 of the polled word; on a word read when not busy it is true exactly when one of the
three latches is set. -/
def Obligations.ErrorTest : Prop :=
  (∀ b : Byte, err b = (b.getLsbD 1 || b.getLsbD 4) ∧ (err b = true ↔ b &&& 0x12#8 ≠ 0#8)) ∧
  (∀ (drawn : Word) (s : State), s.busy = false →
    err ((statusWord drawn s).setWidth 8) = (s.adrack || s.datack || s.arblst))

/-- R174, R179: where the engine holds while BUSY is set: the entry guard, INIT's I1 and every poll. -/
def Obligations.EngineHoldsWhileBusy : Prop :=
  ∀ (E : Env) (s : State), s.busy = true →
    (s.epc.label = .t0 ∨ s.epc.label = .i1 ∨ s.epc.label = .a4 ∨ s.epc.label = .x2 ∨ s.epc.label = .w3 ∨ s.epc.label = .r3 ∨
      s.epc.label = .b3 ∨ s.epc.label = .b6 ∨ s.epc.label = .q3 ∨ s.epc.label = .m2 ∨ s.epc.label = .l2 ∨ s.epc.label = .s2) →
    engineStep E s = s

/-- A block at rest and initialised, whose engine can run: what the source asks of a caller. -/
def Sys2Proof.Machine.readyToRun (E : Env) (s : State) : Prop :=
  Inv E.maxBurst s ∧ s.eact = false ∧ s.busy = false ∧ s.cstate = .idle ∧ s.initDone = true ∧ stopped .engine s = false

/-- The command words the engine has written to MCS, oldest first (R28, R175). -/
def Sys2Proof.Machine.engineCommands (s : State) : List Byte :=
  s.hr.filterMap fun e =>
    if e.agent = .engine ∧ e.kind = .wr ∧ e.reg = .mcs then some (e.value.setWidth 8) else none

/-! The statements from here to OkExactlyWhenTheTraceIsClean that speak of `rounds` are about ONE of the schedules R70 allows: the
controller completes what is pending, the engine moves otherwise, the host makes no access (log entry 1). -/

/-- R190, R191, R62: WRITE_ONE and READ_ONE on a bus that answers Ack and never stalls: their bus traces, their command words, and
their results, on the schedule `rounds` (log entry 1). -/
def Obligations.SingleByteCleanTraces : Prop :=
  ∀ (E : Env) (s : State) (dev : DevAddr) (reg val v : Byte), readyToRun E s →
    (∀ h, E.oracle.stall h = false) → (∀ h b, E.oracle.addr h b = .ack) → (∀ h b, E.oracle.tx h b = .ack) →
    (∀ h m, E.oracle.rx h m = .byte v) →
    let w := rounds E 10 (acceptRequest E .writeOne { dev := dev.toNat, reg := reg.toNat, val := val.toNat } s)
    let r := rounds E 11 (acceptRequest E .readOne { dev := dev.toNat, reg := reg.toNat } s)
    hostResult w = some (.status .ok) ∧
    w.hb = s.hb ++ [.start, .addr (saByte dev false) .ack, .tx reg .ack, .tx val .ack, .stop] ∧
    engineCommands w = engineCommands s ++ [0x03#8, 0x05#8] ∧
    hostResult r = some (.byte .ok v) ∧
    r.hb = s.hb ++ [.start, .addr (saByte dev false) .ack, .tx reg .ack, .rstart, .addr (saByte dev true) .ack,
      .rx v .nack, .stop] ∧
    engineCommands r = engineCommands s ++ [0x03#8, 0x07#8]

/-- R192, R193, R62, P3, P5: WRITE_BURST and READ_BURST of any legal count on a bus that answers Ack, never stalls and keeps every
byte. The bytes go out, and are returned, in order; the master acknowledges every received byte but the last; a read of one byte is
the one command 0x07, with never 0x0B or 0x09. On the schedule `rounds` (log entry 1). -/
def Obligations.BurstCleanTraces : Prop :=
  ∀ (E : Env) (s : State) (dev : DevAddr) (reg : Byte) (bytes : List Byte), readyToRun E s →
    1 ≤ bytes.length → bytes.length ≤ E.maxBurst →
    (∀ h, E.oracle.stall h = false) → (∀ h b, E.oracle.addr h b = .ack) → (∀ h b, E.oracle.tx h b = .ack) →
    (∀ h m, ∃ v, E.oracle.rx h m = .byte v) →
    let n := bytes.length
    let w := rounds E (4 * n + 6)
      (acceptRequest E .writeBurst { dev := dev.toNat, reg := reg.toNat, n := n, wbuf := bytes.map BitVec.toNat } s)
    let r := rounds E (4 * n + 7) (acceptRequest E .readBurst { dev := dev.toNat, reg := reg.toNat, n := n } s)
    (hostResult w = some (.status .ok) ∧
      w.hb = s.hb ++ [.start, .addr (saByte dev false) .ack, .tx reg .ack] ++ bytes.map (fun b => .tx b .ack) ++ [.stop] ∧
      engineCommands w = engineCommands s ++ [0x03#8] ++ List.replicate (n - 1) 0x01#8 ++ [0x05#8]) ∧
    ∃ (body : List Byte) (last : Byte), body.length + 1 = n ∧
      hostResult r = some (.bytes .ok (body ++ [last])) ∧
      r.hb = s.hb ++ [.start, .addr (saByte dev false) .ack, .tx reg .ack, .rstart, .addr (saByte dev true) .ack]
        ++ body.map (fun v => .rx v .ack) ++ [.rx last .nack, .stop] ∧
      engineCommands r = engineCommands s ++
        (if n = 1 then [0x03#8, 0x07#8] else [0x03#8, 0x0B#8] ++ List.replicate (n - 2) 0x09#8 ++ [0x05#8])

/-- R195.3, P4: for every primitive that has bytes to move, a NACK of the write address gives the trace START, ADDR, STOP, no
data phase, exactly one CMD_STOP, and FAIL, on the schedule `rounds` (log entry 1). -/
def Obligations.AddressNackIsContained : Prop :=
  ∀ (E : Env) (s : State) (op : Op) (o : Operands), readyToRun E s →
    Op.isTxn op = true → requestFault E op o s = none → (Op.isBurst op = true → 1 ≤ o.n) →
    (∀ h, E.oracle.stall h = false) → (∀ h b, E.oracle.addr h b = .nack) →
    let t := rounds E 10 (acceptRequest E op o s)
    t.eact = false ∧ t.done = true ∧ t.status = .fail ∧ t.cstate = .idle ∧ t.busy = false ∧
    t.hb = s.hb ++ [.start, .addr (saByte (BitVec.ofNat 7 o.dev) false) .nack, .stop] ∧
    engineCommands t = engineCommands s ++ [0x03#8, 0x04#8]

/-- P1 on the reference device (R142): a byte written to a register is read back from it, on the schedule `rounds` (log entry 1). -/
def Obligations.WriteThenReadReturnsTheByte : Prop :=
  ∀ (E : Env) (d : RefDev) (s : State) (reg v : Byte), E.oracle = d.oracle → d.inject = [] → readyToRun E s →
    let w := rounds E 10 (acceptRequest E .writeOne { dev := d.d0.toNat, reg := reg.toNat, val := v.toNat } s)
    let r := rounds E 11 (acceptRequest E .readOne { dev := d.d0.toNat, reg := reg.toNat } w)
    hostResult w = some (.status .ok) ∧ hostResult r = some (.byte .ok v)

/-- P2 on the reference device (R142, R62): a burst written is read back in the same order, up to the 256 registers a device
has, on the schedule `rounds` (log entry 1). -/
def Obligations.BurstWriteThenReadKeepsOrder : Prop :=
  ∀ (E : Env) (d : RefDev) (s : State) (reg : Byte) (bytes : List Byte),
    E.oracle = d.oracle → d.inject = [] → readyToRun E s →
    1 ≤ bytes.length → bytes.length ≤ E.maxBurst → bytes.length ≤ 256 →
    let n := bytes.length
    let w := rounds E (4 * n + 6)
      (acceptRequest E .writeBurst { dev := d.d0.toNat, reg := reg.toNat, n := n, wbuf := bytes.map BitVec.toNat } s)
    let r := rounds E (4 * n + 7) (acceptRequest E .readBurst { dev := d.d0.toNat, reg := reg.toNat, n := n } w)
    hostResult w = some (.status .ok) ∧ hostResult r = some (.bytes .ok bytes)

/-- R140, R181: over every oracle that never stalls, whatever it answers, a primitive accepted in Idle ends: within 4 n + 7 rounds for
a burst of n bytes, 11 for a single byte. It then has its result, of the latched request, and the block can take another. On the
schedule `rounds` (log entry 1), which is fair to the controller as R140 asks. -/
def Obligations.AcceptedTransactionEnds : Prop :=
  ∀ (E : Env) (s : State) (op : Op) (o : Operands), readyToRun E s →
    Op.isTxn op = true → requestFault E op o s = none → (Op.isBurst op = true → 1 ≤ o.n) →
    (∀ h, E.oracle.stall h = false) →
    let t := rounds E (if Op.isBurst op then 4 * o.n + 7 else 11) (acceptRequest E op o s)
    t.done = true ∧ (∃ e : EngEvent, t.he = s.he ++ [e] ∧ e.request = latchedRequest (latchRequest op o s)) ∧ readyToRun E t

/-- R194: the legacy projection cannot tell a failure from a byte 0xFF. -/
def Obligations.LegacyProjectionIsNotInjective : Prop :=
  ∀ x : Byte, legacyByte .ok 0xFF#8 = legacyByte .fail x ∧ ∀ b : Byte, legacyByte .ok b = b

/-! ### Invariants -/

/-- The invariant holds after reset. -/
def Obligations.InvHoldsAtReset : Prop := Inv Config.maxBurst State.reset

/-- Every step answers a next state and keeps the invariant: BUSY and the latch agree, a command in flight was admitted, at most
one error latch is set (R216), MTPR holds a legal divisor (R24), the engine stands where R178 says and every position's
access is legal. -/
def Obligations.EveryStepKeepsInv : Prop :=
  ∀ s : State, Inv Config.maxBurst s → ∃ t : State, step s = .next t ∧ Inv Config.maxBurst t

/-- R195.4, R175, R177: a transaction raises no fault after its acceptance: whatever the oracle and the schedule, an engine
step of a running primitive leaves the fault record as it was. -/
def Obligations.TransactionsNeverFault : Prop :=
  ∀ (E : Env) (s : State), Inv E.maxBurst s → s.op ≠ .init → (engineStep E s).faults = s.faults

/-- R195.1: the step in which a transaction finishes leaves the block not busy, the bus Idle, done set, and one entry more in
HE. -/
def Obligations.FinishedTransactionLeavesTheBusIdle : Prop :=
  ∀ (E : Env) (s : State), Inv E.maxBurst s → s.op ≠ .init → s.eact = true →
    (engineStep E s).eact = false →
    let t := engineStep E s
    t.busy = false ∧ t.pend = none ∧ t.cstate = .idle ∧ t.estate = .idle ∧ t.done = true ∧
      ∃ e : EngEvent, t.he = s.he ++ [e] ∧ e.request = latchedRequest s

/-- An event that loses the bus to another party (R129). -/
def Sys2Proof.Machine.losesBus : BusEvent → Bool
  | .addr _ a => a == .arbLost
  | .tx _ a => a == .arbLost
  | .rxLost => true
  | .start => false
  | .rstart => false
  | .rx _ _ => false
  | .stop => false

/-- An event that reports an error (R211). -/
def Sys2Proof.Machine.reportsError : BusEvent → Bool
  | .addr _ a => a != .ack
  | .tx _ a => a != .ack
  | .rxLost => true
  | .start => false
  | .rstart => false
  | .rx _ _ => false
  | .stop => false

/-- R195.2, over every oracle: a primitive accepted in Idle that has finished left a trace with one START, at most one RSTART,
and one STOP, its last event; or, where arbitration was lost, no STOP, the loss being its last event. On the schedule `rounds` (log entry 1); that the run ends
where the oracle never stalls is AcceptedTransactionEnds. -/
def Obligations.EveryTraceHasOneStartAndOneStop : Prop :=
  ∀ (E : Env) (s : State) (op : Op) (o : Operands) (k : Nat), readyToRun E s →
    Op.isTxn op = true → requestFault E op o s = none → (Op.isBurst op = true → 1 ≤ o.n) →
    let t := rounds E k (acceptRequest E op o s)
    t.eact = false →
    ∃ tr : List BusEvent, t.hb = s.hb ++ tr ∧ tr.count .start = 1 ∧ tr.count .rstart ≤ 1 ∧
      (tr.any losesBus = false → tr.count .stop = 1 ∧ tr.getLast? = some .stop) ∧
      (tr.any losesBus = true → tr.count .stop = 0 ∧ ∃ e ∈ tr.getLast?, losesBus e = true)

/-- R195.5, over every oracle: a primitive that has finished is OK exactly when its trace reports no error. On the schedule `rounds` (log
entry 1); that the run ends where the oracle never stalls is AcceptedTransactionEnds. -/
def Obligations.OkExactlyWhenTheTraceIsClean : Prop :=
  ∀ (E : Env) (s : State) (op : Op) (o : Operands) (k : Nat), readyToRun E s →
    Op.isTxn op = true → requestFault E op o s = none → (Op.isBurst op = true → 1 ≤ o.n) →
    let t := rounds E k (acceptRequest E op o s)
    t.eact = false →
    ∃ tr : List BusEvent, t.hb = s.hb ++ tr ∧ (t.status = .ok ↔ tr.any reportsError = false)
end

