-- ==== Sys2Proof/Laws/State.lean ====
section
/-!
SUPPORT. One lemma per field for each named update of the state, true by rfl and tagged for simp, so that no proof unfolds
an update. A record update written out in a definition needs none: simp reads its fields.
-/

namespace Sys2Proof.Machine

@[simp] theorem raise_msa (r : Fault) (a : Agent) (what : Input) (s : State) : (raise r a what s).msa = s.msa := rfl
@[simp] theorem raise_mdr (r : Fault) (a : Agent) (what : Input) (s : State) : (raise r a what s).mdr = s.mdr := rfl
@[simp] theorem raise_mtpr (r : Fault) (a : Agent) (what : Input) (s : State) : (raise r a what s).mtpr = s.mtpr := rfl
@[simp] theorem raise_cstate (r : Fault) (a : Agent) (what : Input) (s : State) : (raise r a what s).cstate = s.cstate := rfl
@[simp] theorem raise_busy (r : Fault) (a : Agent) (what : Input) (s : State) : (raise r a what s).busy = s.busy := rfl
@[simp] theorem raise_pend (r : Fault) (a : Agent) (what : Input) (s : State) : (raise r a what s).pend = s.pend := rfl
@[simp] theorem raise_adrack (r : Fault) (a : Agent) (what : Input) (s : State) : (raise r a what s).adrack = s.adrack := rfl
@[simp] theorem raise_datack (r : Fault) (a : Agent) (what : Input) (s : State) : (raise r a what s).datack = s.datack := rfl
@[simp] theorem raise_arblst (r : Fault) (a : Agent) (what : Input) (s : State) : (raise r a what s).arblst = s.arblst := rfl
@[simp] theorem raise_hb (r : Fault) (a : Agent) (what : Input) (s : State) : (raise r a what s).hb = s.hb := rfl
@[simp] theorem raise_hr (r : Fault) (a : Agent) (what : Input) (s : State) : (raise r a what s).hr = s.hr := rfl
@[simp] theorem raise_he (r : Fault) (a : Agent) (what : Input) (s : State) : (raise r a what s).he = s.he := rfl
@[simp] theorem raise_estate (r : Fault) (a : Agent) (what : Input) (s : State) : (raise r a what s).estate = s.estate := rfl
@[simp] theorem raise_epc (r : Fault) (a : Agent) (what : Input) (s : State) : (raise r a what s).epc = s.epc := rfl
@[simp] theorem raise_op (r : Fault) (a : Agent) (what : Input) (s : State) : (raise r a what s).op = s.op := rfl
@[simp] theorem raise_dev (r : Fault) (a : Agent) (what : Input) (s : State) : (raise r a what s).dev = s.dev := rfl
@[simp] theorem raise_reg (r : Fault) (a : Agent) (what : Input) (s : State) : (raise r a what s).reg = s.reg := rfl
@[simp] theorem raise_val (r : Fault) (a : Agent) (what : Input) (s : State) : (raise r a what s).val = s.val := rfl
@[simp] theorem raise_n (r : Fault) (a : Agent) (what : Input) (s : State) : (raise r a what s).n = s.n := rfl
@[simp] theorem raise_wbuf (r : Fault) (a : Agent) (what : Input) (s : State) : (raise r a what s).wbuf = s.wbuf := rfl
@[simp] theorem raise_sysclk (r : Fault) (a : Agent) (what : Input) (s : State) : (raise r a what s).sysclk = s.sysclk := rfl
@[simp] theorem raise_target (r : Fault) (a : Agent) (what : Input) (s : State) : (raise r a what s).target = s.target := rfl
@[simp] theorem raise_tpr (r : Fault) (a : Agent) (what : Input) (s : State) : (raise r a what s).tpr = s.tpr := rfl
@[simp] theorem raise_snap (r : Fault) (a : Agent) (what : Input) (s : State) : (raise r a what s).snap = s.snap := rfl
@[simp] theorem raise_rbuf (r : Fault) (a : Agent) (what : Input) (s : State) : (raise r a what s).rbuf = s.rbuf := rfl
@[simp] theorem raise_status (r : Fault) (a : Agent) (what : Input) (s : State) : (raise r a what s).status = s.status := rfl
@[simp] theorem raise_rdata (r : Fault) (a : Agent) (what : Input) (s : State) : (raise r a what s).rdata = s.rdata := rfl
@[simp] theorem raise_done (r : Fault) (a : Agent) (what : Input) (s : State) : (raise r a what s).done = s.done := rfl
@[simp] theorem raise_eact (r : Fault) (a : Agent) (what : Input) (s : State) : (raise r a what s).eact = s.eact := rfl
@[simp] theorem raise_initDone (r : Fault) (a : Agent) (what : Input) (s : State) : (raise r a what s).initDone = s.initDone := rfl
@[simp] theorem raise_faults (r : Fault) (a : Agent) (what : Input) (s : State) : (raise r a what s).faults = s.faults ++ [{ reason := r, agent := a, what := what }] := rfl
@[simp] theorem raise_draws (r : Fault) (a : Agent) (what : Input) (s : State) : (raise r a what s).draws = s.draws := rfl
@[simp] theorem raise_hostQ (r : Fault) (a : Agent) (what : Input) (s : State) : (raise r a what s).hostQ = s.hostQ := rfl
@[simp] theorem raise_turn (r : Fault) (a : Agent) (what : Input) (s : State) : (raise r a what s).turn = s.turn := rfl
@[simp] theorem raise_tick (r : Fault) (a : Agent) (what : Input) (s : State) : (raise r a what s).tick = s.tick := rfl

@[simp] theorem emit_msa (e : BusEvent) (s : State) : (emit e s).msa = s.msa := rfl
@[simp] theorem emit_mdr (e : BusEvent) (s : State) : (emit e s).mdr = s.mdr := rfl
@[simp] theorem emit_mtpr (e : BusEvent) (s : State) : (emit e s).mtpr = s.mtpr := rfl
@[simp] theorem emit_cstate (e : BusEvent) (s : State) : (emit e s).cstate = s.cstate := rfl
@[simp] theorem emit_busy (e : BusEvent) (s : State) : (emit e s).busy = s.busy := rfl
@[simp] theorem emit_pend (e : BusEvent) (s : State) : (emit e s).pend = s.pend := rfl
@[simp] theorem emit_adrack (e : BusEvent) (s : State) : (emit e s).adrack = s.adrack := rfl
@[simp] theorem emit_datack (e : BusEvent) (s : State) : (emit e s).datack = s.datack := rfl
@[simp] theorem emit_arblst (e : BusEvent) (s : State) : (emit e s).arblst = s.arblst := rfl
@[simp] theorem emit_hb (e : BusEvent) (s : State) : (emit e s).hb = s.hb ++ [e] := rfl
@[simp] theorem emit_hr (e : BusEvent) (s : State) : (emit e s).hr = s.hr := rfl
@[simp] theorem emit_he (e : BusEvent) (s : State) : (emit e s).he = s.he := rfl
@[simp] theorem emit_estate (e : BusEvent) (s : State) : (emit e s).estate = s.estate := rfl
@[simp] theorem emit_epc (e : BusEvent) (s : State) : (emit e s).epc = s.epc := rfl
@[simp] theorem emit_op (e : BusEvent) (s : State) : (emit e s).op = s.op := rfl
@[simp] theorem emit_dev (e : BusEvent) (s : State) : (emit e s).dev = s.dev := rfl
@[simp] theorem emit_reg (e : BusEvent) (s : State) : (emit e s).reg = s.reg := rfl
@[simp] theorem emit_val (e : BusEvent) (s : State) : (emit e s).val = s.val := rfl
@[simp] theorem emit_n (e : BusEvent) (s : State) : (emit e s).n = s.n := rfl
@[simp] theorem emit_wbuf (e : BusEvent) (s : State) : (emit e s).wbuf = s.wbuf := rfl
@[simp] theorem emit_sysclk (e : BusEvent) (s : State) : (emit e s).sysclk = s.sysclk := rfl
@[simp] theorem emit_target (e : BusEvent) (s : State) : (emit e s).target = s.target := rfl
@[simp] theorem emit_tpr (e : BusEvent) (s : State) : (emit e s).tpr = s.tpr := rfl
@[simp] theorem emit_snap (e : BusEvent) (s : State) : (emit e s).snap = s.snap := rfl
@[simp] theorem emit_rbuf (e : BusEvent) (s : State) : (emit e s).rbuf = s.rbuf := rfl
@[simp] theorem emit_status (e : BusEvent) (s : State) : (emit e s).status = s.status := rfl
@[simp] theorem emit_rdata (e : BusEvent) (s : State) : (emit e s).rdata = s.rdata := rfl
@[simp] theorem emit_done (e : BusEvent) (s : State) : (emit e s).done = s.done := rfl
@[simp] theorem emit_eact (e : BusEvent) (s : State) : (emit e s).eact = s.eact := rfl
@[simp] theorem emit_initDone (e : BusEvent) (s : State) : (emit e s).initDone = s.initDone := rfl
@[simp] theorem emit_faults (e : BusEvent) (s : State) : (emit e s).faults = s.faults := rfl
@[simp] theorem emit_draws (e : BusEvent) (s : State) : (emit e s).draws = s.draws := rfl
@[simp] theorem emit_hostQ (e : BusEvent) (s : State) : (emit e s).hostQ = s.hostQ := rfl
@[simp] theorem emit_turn (e : BusEvent) (s : State) : (emit e s).turn = s.turn := rfl
@[simp] theorem emit_tick (e : BusEvent) (s : State) : (emit e s).tick = s.tick := rfl

@[simp] theorem logAccess_msa (a : Agent) (k : Kind) (r : Reg) (v : Word) (s : State) : (logAccess a k r v s).msa = s.msa := rfl
@[simp] theorem logAccess_mdr (a : Agent) (k : Kind) (r : Reg) (v : Word) (s : State) : (logAccess a k r v s).mdr = s.mdr := rfl
@[simp] theorem logAccess_mtpr (a : Agent) (k : Kind) (r : Reg) (v : Word) (s : State) : (logAccess a k r v s).mtpr = s.mtpr := rfl
@[simp] theorem logAccess_cstate (a : Agent) (k : Kind) (r : Reg) (v : Word) (s : State) : (logAccess a k r v s).cstate = s.cstate := rfl
@[simp] theorem logAccess_busy (a : Agent) (k : Kind) (r : Reg) (v : Word) (s : State) : (logAccess a k r v s).busy = s.busy := rfl
@[simp] theorem logAccess_pend (a : Agent) (k : Kind) (r : Reg) (v : Word) (s : State) : (logAccess a k r v s).pend = s.pend := rfl
@[simp] theorem logAccess_adrack (a : Agent) (k : Kind) (r : Reg) (v : Word) (s : State) : (logAccess a k r v s).adrack = s.adrack := rfl
@[simp] theorem logAccess_datack (a : Agent) (k : Kind) (r : Reg) (v : Word) (s : State) : (logAccess a k r v s).datack = s.datack := rfl
@[simp] theorem logAccess_arblst (a : Agent) (k : Kind) (r : Reg) (v : Word) (s : State) : (logAccess a k r v s).arblst = s.arblst := rfl
@[simp] theorem logAccess_hb (a : Agent) (k : Kind) (r : Reg) (v : Word) (s : State) : (logAccess a k r v s).hb = s.hb := rfl
@[simp] theorem logAccess_hr (a : Agent) (k : Kind) (r : Reg) (v : Word) (s : State) : (logAccess a k r v s).hr = s.hr ++ [{ agent := a, kind := k, reg := r, value := v }] := rfl
@[simp] theorem logAccess_he (a : Agent) (k : Kind) (r : Reg) (v : Word) (s : State) : (logAccess a k r v s).he = s.he := rfl
@[simp] theorem logAccess_estate (a : Agent) (k : Kind) (r : Reg) (v : Word) (s : State) : (logAccess a k r v s).estate = s.estate := rfl
@[simp] theorem logAccess_epc (a : Agent) (k : Kind) (r : Reg) (v : Word) (s : State) : (logAccess a k r v s).epc = s.epc := rfl
@[simp] theorem logAccess_op (a : Agent) (k : Kind) (r : Reg) (v : Word) (s : State) : (logAccess a k r v s).op = s.op := rfl
@[simp] theorem logAccess_dev (a : Agent) (k : Kind) (r : Reg) (v : Word) (s : State) : (logAccess a k r v s).dev = s.dev := rfl
@[simp] theorem logAccess_reg (a : Agent) (k : Kind) (r : Reg) (v : Word) (s : State) : (logAccess a k r v s).reg = s.reg := rfl
@[simp] theorem logAccess_val (a : Agent) (k : Kind) (r : Reg) (v : Word) (s : State) : (logAccess a k r v s).val = s.val := rfl
@[simp] theorem logAccess_n (a : Agent) (k : Kind) (r : Reg) (v : Word) (s : State) : (logAccess a k r v s).n = s.n := rfl
@[simp] theorem logAccess_wbuf (a : Agent) (k : Kind) (r : Reg) (v : Word) (s : State) : (logAccess a k r v s).wbuf = s.wbuf := rfl
@[simp] theorem logAccess_sysclk (a : Agent) (k : Kind) (r : Reg) (v : Word) (s : State) : (logAccess a k r v s).sysclk = s.sysclk := rfl
@[simp] theorem logAccess_target (a : Agent) (k : Kind) (r : Reg) (v : Word) (s : State) : (logAccess a k r v s).target = s.target := rfl
@[simp] theorem logAccess_tpr (a : Agent) (k : Kind) (r : Reg) (v : Word) (s : State) : (logAccess a k r v s).tpr = s.tpr := rfl
@[simp] theorem logAccess_snap (a : Agent) (k : Kind) (r : Reg) (v : Word) (s : State) : (logAccess a k r v s).snap = s.snap := rfl
@[simp] theorem logAccess_rbuf (a : Agent) (k : Kind) (r : Reg) (v : Word) (s : State) : (logAccess a k r v s).rbuf = s.rbuf := rfl
@[simp] theorem logAccess_status (a : Agent) (k : Kind) (r : Reg) (v : Word) (s : State) : (logAccess a k r v s).status = s.status := rfl
@[simp] theorem logAccess_rdata (a : Agent) (k : Kind) (r : Reg) (v : Word) (s : State) : (logAccess a k r v s).rdata = s.rdata := rfl
@[simp] theorem logAccess_done (a : Agent) (k : Kind) (r : Reg) (v : Word) (s : State) : (logAccess a k r v s).done = s.done := rfl
@[simp] theorem logAccess_eact (a : Agent) (k : Kind) (r : Reg) (v : Word) (s : State) : (logAccess a k r v s).eact = s.eact := rfl
@[simp] theorem logAccess_initDone (a : Agent) (k : Kind) (r : Reg) (v : Word) (s : State) : (logAccess a k r v s).initDone = s.initDone := rfl
@[simp] theorem logAccess_faults (a : Agent) (k : Kind) (r : Reg) (v : Word) (s : State) : (logAccess a k r v s).faults = s.faults := rfl
@[simp] theorem logAccess_draws (a : Agent) (k : Kind) (r : Reg) (v : Word) (s : State) : (logAccess a k r v s).draws = s.draws := rfl
@[simp] theorem logAccess_hostQ (a : Agent) (k : Kind) (r : Reg) (v : Word) (s : State) : (logAccess a k r v s).hostQ = s.hostQ := rfl
@[simp] theorem logAccess_turn (a : Agent) (k : Kind) (r : Reg) (v : Word) (s : State) : (logAccess a k r v s).turn = s.turn := rfl
@[simp] theorem logAccess_tick (a : Agent) (k : Kind) (r : Reg) (v : Word) (s : State) : (logAccess a k r v s).tick = s.tick := rfl

@[simp] theorem draw_msa (E : Env) (s : State) : (draw E s).2.msa = s.msa := rfl
@[simp] theorem draw_mdr (E : Env) (s : State) : (draw E s).2.mdr = s.mdr := rfl
@[simp] theorem draw_mtpr (E : Env) (s : State) : (draw E s).2.mtpr = s.mtpr := rfl
@[simp] theorem draw_cstate (E : Env) (s : State) : (draw E s).2.cstate = s.cstate := rfl
@[simp] theorem draw_busy (E : Env) (s : State) : (draw E s).2.busy = s.busy := rfl
@[simp] theorem draw_pend (E : Env) (s : State) : (draw E s).2.pend = s.pend := rfl
@[simp] theorem draw_adrack (E : Env) (s : State) : (draw E s).2.adrack = s.adrack := rfl
@[simp] theorem draw_datack (E : Env) (s : State) : (draw E s).2.datack = s.datack := rfl
@[simp] theorem draw_arblst (E : Env) (s : State) : (draw E s).2.arblst = s.arblst := rfl
@[simp] theorem draw_hb (E : Env) (s : State) : (draw E s).2.hb = s.hb := rfl
@[simp] theorem draw_hr (E : Env) (s : State) : (draw E s).2.hr = s.hr := rfl
@[simp] theorem draw_he (E : Env) (s : State) : (draw E s).2.he = s.he := rfl
@[simp] theorem draw_estate (E : Env) (s : State) : (draw E s).2.estate = s.estate := rfl
@[simp] theorem draw_epc (E : Env) (s : State) : (draw E s).2.epc = s.epc := rfl
@[simp] theorem draw_op (E : Env) (s : State) : (draw E s).2.op = s.op := rfl
@[simp] theorem draw_dev (E : Env) (s : State) : (draw E s).2.dev = s.dev := rfl
@[simp] theorem draw_reg (E : Env) (s : State) : (draw E s).2.reg = s.reg := rfl
@[simp] theorem draw_val (E : Env) (s : State) : (draw E s).2.val = s.val := rfl
@[simp] theorem draw_n (E : Env) (s : State) : (draw E s).2.n = s.n := rfl
@[simp] theorem draw_wbuf (E : Env) (s : State) : (draw E s).2.wbuf = s.wbuf := rfl
@[simp] theorem draw_sysclk (E : Env) (s : State) : (draw E s).2.sysclk = s.sysclk := rfl
@[simp] theorem draw_target (E : Env) (s : State) : (draw E s).2.target = s.target := rfl
@[simp] theorem draw_tpr (E : Env) (s : State) : (draw E s).2.tpr = s.tpr := rfl
@[simp] theorem draw_snap (E : Env) (s : State) : (draw E s).2.snap = s.snap := rfl
@[simp] theorem draw_rbuf (E : Env) (s : State) : (draw E s).2.rbuf = s.rbuf := rfl
@[simp] theorem draw_status (E : Env) (s : State) : (draw E s).2.status = s.status := rfl
@[simp] theorem draw_rdata (E : Env) (s : State) : (draw E s).2.rdata = s.rdata := rfl
@[simp] theorem draw_done (E : Env) (s : State) : (draw E s).2.done = s.done := rfl
@[simp] theorem draw_eact (E : Env) (s : State) : (draw E s).2.eact = s.eact := rfl
@[simp] theorem draw_initDone (E : Env) (s : State) : (draw E s).2.initDone = s.initDone := rfl
@[simp] theorem draw_faults (E : Env) (s : State) : (draw E s).2.faults = s.faults := rfl
@[simp] theorem draw_draws (E : Env) (s : State) : (draw E s).2.draws = s.draws + 1 := rfl
@[simp] theorem draw_hostQ (E : Env) (s : State) : (draw E s).2.hostQ = s.hostQ := rfl
@[simp] theorem draw_turn (E : Env) (s : State) : (draw E s).2.turn = s.turn := rfl
@[simp] theorem draw_tick (E : Env) (s : State) : (draw E s).2.tick = s.tick := rfl

@[simp] theorem drawByte_msa (E : Env) (s : State) : (drawByte E s).2.msa = s.msa := rfl
@[simp] theorem drawByte_mdr (E : Env) (s : State) : (drawByte E s).2.mdr = s.mdr := rfl
@[simp] theorem drawByte_mtpr (E : Env) (s : State) : (drawByte E s).2.mtpr = s.mtpr := rfl
@[simp] theorem drawByte_cstate (E : Env) (s : State) : (drawByte E s).2.cstate = s.cstate := rfl
@[simp] theorem drawByte_busy (E : Env) (s : State) : (drawByte E s).2.busy = s.busy := rfl
@[simp] theorem drawByte_pend (E : Env) (s : State) : (drawByte E s).2.pend = s.pend := rfl
@[simp] theorem drawByte_adrack (E : Env) (s : State) : (drawByte E s).2.adrack = s.adrack := rfl
@[simp] theorem drawByte_datack (E : Env) (s : State) : (drawByte E s).2.datack = s.datack := rfl
@[simp] theorem drawByte_arblst (E : Env) (s : State) : (drawByte E s).2.arblst = s.arblst := rfl
@[simp] theorem drawByte_hb (E : Env) (s : State) : (drawByte E s).2.hb = s.hb := rfl
@[simp] theorem drawByte_hr (E : Env) (s : State) : (drawByte E s).2.hr = s.hr := rfl
@[simp] theorem drawByte_he (E : Env) (s : State) : (drawByte E s).2.he = s.he := rfl
@[simp] theorem drawByte_estate (E : Env) (s : State) : (drawByte E s).2.estate = s.estate := rfl
@[simp] theorem drawByte_epc (E : Env) (s : State) : (drawByte E s).2.epc = s.epc := rfl
@[simp] theorem drawByte_op (E : Env) (s : State) : (drawByte E s).2.op = s.op := rfl
@[simp] theorem drawByte_dev (E : Env) (s : State) : (drawByte E s).2.dev = s.dev := rfl
@[simp] theorem drawByte_reg (E : Env) (s : State) : (drawByte E s).2.reg = s.reg := rfl
@[simp] theorem drawByte_val (E : Env) (s : State) : (drawByte E s).2.val = s.val := rfl
@[simp] theorem drawByte_n (E : Env) (s : State) : (drawByte E s).2.n = s.n := rfl
@[simp] theorem drawByte_wbuf (E : Env) (s : State) : (drawByte E s).2.wbuf = s.wbuf := rfl
@[simp] theorem drawByte_sysclk (E : Env) (s : State) : (drawByte E s).2.sysclk = s.sysclk := rfl
@[simp] theorem drawByte_target (E : Env) (s : State) : (drawByte E s).2.target = s.target := rfl
@[simp] theorem drawByte_tpr (E : Env) (s : State) : (drawByte E s).2.tpr = s.tpr := rfl
@[simp] theorem drawByte_snap (E : Env) (s : State) : (drawByte E s).2.snap = s.snap := rfl
@[simp] theorem drawByte_rbuf (E : Env) (s : State) : (drawByte E s).2.rbuf = s.rbuf := rfl
@[simp] theorem drawByte_status (E : Env) (s : State) : (drawByte E s).2.status = s.status := rfl
@[simp] theorem drawByte_rdata (E : Env) (s : State) : (drawByte E s).2.rdata = s.rdata := rfl
@[simp] theorem drawByte_done (E : Env) (s : State) : (drawByte E s).2.done = s.done := rfl
@[simp] theorem drawByte_eact (E : Env) (s : State) : (drawByte E s).2.eact = s.eact := rfl
@[simp] theorem drawByte_initDone (E : Env) (s : State) : (drawByte E s).2.initDone = s.initDone := rfl
@[simp] theorem drawByte_faults (E : Env) (s : State) : (drawByte E s).2.faults = s.faults := rfl
@[simp] theorem drawByte_draws (E : Env) (s : State) : (drawByte E s).2.draws = s.draws + 1 := rfl
@[simp] theorem drawByte_hostQ (E : Env) (s : State) : (drawByte E s).2.hostQ = s.hostQ := rfl
@[simp] theorem drawByte_turn (E : Env) (s : State) : (drawByte E s).2.turn = s.turn := rfl
@[simp] theorem drawByte_tick (E : Env) (s : State) : (drawByte E s).2.tick = s.tick := rfl

@[simp] theorem unspecifyMdr_msa (E : Env) (s : State) : (unspecifyMdr E s).msa = s.msa := rfl
@[simp] theorem unspecifyMdr_mdr (E : Env) (s : State) : (unspecifyMdr E s).mdr = some ((E.free s.draws).setWidth 8) := rfl
@[simp] theorem unspecifyMdr_mtpr (E : Env) (s : State) : (unspecifyMdr E s).mtpr = s.mtpr := rfl
@[simp] theorem unspecifyMdr_cstate (E : Env) (s : State) : (unspecifyMdr E s).cstate = s.cstate := rfl
@[simp] theorem unspecifyMdr_busy (E : Env) (s : State) : (unspecifyMdr E s).busy = s.busy := rfl
@[simp] theorem unspecifyMdr_pend (E : Env) (s : State) : (unspecifyMdr E s).pend = s.pend := rfl
@[simp] theorem unspecifyMdr_adrack (E : Env) (s : State) : (unspecifyMdr E s).adrack = s.adrack := rfl
@[simp] theorem unspecifyMdr_datack (E : Env) (s : State) : (unspecifyMdr E s).datack = s.datack := rfl
@[simp] theorem unspecifyMdr_arblst (E : Env) (s : State) : (unspecifyMdr E s).arblst = s.arblst := rfl
@[simp] theorem unspecifyMdr_hb (E : Env) (s : State) : (unspecifyMdr E s).hb = s.hb := rfl
@[simp] theorem unspecifyMdr_hr (E : Env) (s : State) : (unspecifyMdr E s).hr = s.hr := rfl
@[simp] theorem unspecifyMdr_he (E : Env) (s : State) : (unspecifyMdr E s).he = s.he := rfl
@[simp] theorem unspecifyMdr_estate (E : Env) (s : State) : (unspecifyMdr E s).estate = s.estate := rfl
@[simp] theorem unspecifyMdr_epc (E : Env) (s : State) : (unspecifyMdr E s).epc = s.epc := rfl
@[simp] theorem unspecifyMdr_op (E : Env) (s : State) : (unspecifyMdr E s).op = s.op := rfl
@[simp] theorem unspecifyMdr_dev (E : Env) (s : State) : (unspecifyMdr E s).dev = s.dev := rfl
@[simp] theorem unspecifyMdr_reg (E : Env) (s : State) : (unspecifyMdr E s).reg = s.reg := rfl
@[simp] theorem unspecifyMdr_val (E : Env) (s : State) : (unspecifyMdr E s).val = s.val := rfl
@[simp] theorem unspecifyMdr_n (E : Env) (s : State) : (unspecifyMdr E s).n = s.n := rfl
@[simp] theorem unspecifyMdr_wbuf (E : Env) (s : State) : (unspecifyMdr E s).wbuf = s.wbuf := rfl
@[simp] theorem unspecifyMdr_sysclk (E : Env) (s : State) : (unspecifyMdr E s).sysclk = s.sysclk := rfl
@[simp] theorem unspecifyMdr_target (E : Env) (s : State) : (unspecifyMdr E s).target = s.target := rfl
@[simp] theorem unspecifyMdr_tpr (E : Env) (s : State) : (unspecifyMdr E s).tpr = s.tpr := rfl
@[simp] theorem unspecifyMdr_snap (E : Env) (s : State) : (unspecifyMdr E s).snap = s.snap := rfl
@[simp] theorem unspecifyMdr_rbuf (E : Env) (s : State) : (unspecifyMdr E s).rbuf = s.rbuf := rfl
@[simp] theorem unspecifyMdr_status (E : Env) (s : State) : (unspecifyMdr E s).status = s.status := rfl
@[simp] theorem unspecifyMdr_rdata (E : Env) (s : State) : (unspecifyMdr E s).rdata = s.rdata := rfl
@[simp] theorem unspecifyMdr_done (E : Env) (s : State) : (unspecifyMdr E s).done = s.done := rfl
@[simp] theorem unspecifyMdr_eact (E : Env) (s : State) : (unspecifyMdr E s).eact = s.eact := rfl
@[simp] theorem unspecifyMdr_initDone (E : Env) (s : State) : (unspecifyMdr E s).initDone = s.initDone := rfl
@[simp] theorem unspecifyMdr_faults (E : Env) (s : State) : (unspecifyMdr E s).faults = s.faults := rfl
@[simp] theorem unspecifyMdr_draws (E : Env) (s : State) : (unspecifyMdr E s).draws = s.draws + 1 := rfl
@[simp] theorem unspecifyMdr_hostQ (E : Env) (s : State) : (unspecifyMdr E s).hostQ = s.hostQ := rfl
@[simp] theorem unspecifyMdr_turn (E : Env) (s : State) : (unspecifyMdr E s).turn = s.turn := rfl
@[simp] theorem unspecifyMdr_tick (E : Env) (s : State) : (unspecifyMdr E s).tick = s.tick := rfl

@[simp] theorem clearLatches_msa (s : State) : (clearLatches s).msa = s.msa := rfl
@[simp] theorem clearLatches_mdr (s : State) : (clearLatches s).mdr = s.mdr := rfl
@[simp] theorem clearLatches_mtpr (s : State) : (clearLatches s).mtpr = s.mtpr := rfl
@[simp] theorem clearLatches_cstate (s : State) : (clearLatches s).cstate = s.cstate := rfl
@[simp] theorem clearLatches_busy (s : State) : (clearLatches s).busy = s.busy := rfl
@[simp] theorem clearLatches_pend (s : State) : (clearLatches s).pend = s.pend := rfl
@[simp] theorem clearLatches_adrack (s : State) : (clearLatches s).adrack = false := rfl
@[simp] theorem clearLatches_datack (s : State) : (clearLatches s).datack = false := rfl
@[simp] theorem clearLatches_arblst (s : State) : (clearLatches s).arblst = false := rfl
@[simp] theorem clearLatches_hb (s : State) : (clearLatches s).hb = s.hb := rfl
@[simp] theorem clearLatches_hr (s : State) : (clearLatches s).hr = s.hr := rfl
@[simp] theorem clearLatches_he (s : State) : (clearLatches s).he = s.he := rfl
@[simp] theorem clearLatches_estate (s : State) : (clearLatches s).estate = s.estate := rfl
@[simp] theorem clearLatches_epc (s : State) : (clearLatches s).epc = s.epc := rfl
@[simp] theorem clearLatches_op (s : State) : (clearLatches s).op = s.op := rfl
@[simp] theorem clearLatches_dev (s : State) : (clearLatches s).dev = s.dev := rfl
@[simp] theorem clearLatches_reg (s : State) : (clearLatches s).reg = s.reg := rfl
@[simp] theorem clearLatches_val (s : State) : (clearLatches s).val = s.val := rfl
@[simp] theorem clearLatches_n (s : State) : (clearLatches s).n = s.n := rfl
@[simp] theorem clearLatches_wbuf (s : State) : (clearLatches s).wbuf = s.wbuf := rfl
@[simp] theorem clearLatches_sysclk (s : State) : (clearLatches s).sysclk = s.sysclk := rfl
@[simp] theorem clearLatches_target (s : State) : (clearLatches s).target = s.target := rfl
@[simp] theorem clearLatches_tpr (s : State) : (clearLatches s).tpr = s.tpr := rfl
@[simp] theorem clearLatches_snap (s : State) : (clearLatches s).snap = s.snap := rfl
@[simp] theorem clearLatches_rbuf (s : State) : (clearLatches s).rbuf = s.rbuf := rfl
@[simp] theorem clearLatches_status (s : State) : (clearLatches s).status = s.status := rfl
@[simp] theorem clearLatches_rdata (s : State) : (clearLatches s).rdata = s.rdata := rfl
@[simp] theorem clearLatches_done (s : State) : (clearLatches s).done = s.done := rfl
@[simp] theorem clearLatches_eact (s : State) : (clearLatches s).eact = s.eact := rfl
@[simp] theorem clearLatches_initDone (s : State) : (clearLatches s).initDone = s.initDone := rfl
@[simp] theorem clearLatches_faults (s : State) : (clearLatches s).faults = s.faults := rfl
@[simp] theorem clearLatches_draws (s : State) : (clearLatches s).draws = s.draws := rfl
@[simp] theorem clearLatches_hostQ (s : State) : (clearLatches s).hostQ = s.hostQ := rfl
@[simp] theorem clearLatches_turn (s : State) : (clearLatches s).turn = s.turn := rfl
@[simp] theorem clearLatches_tick (s : State) : (clearLatches s).tick = s.tick := rfl

@[simp] theorem goto_msa (l : Label) (i : Nat) (s : State) : (goto l i s).msa = s.msa := rfl
@[simp] theorem goto_mdr (l : Label) (i : Nat) (s : State) : (goto l i s).mdr = s.mdr := rfl
@[simp] theorem goto_mtpr (l : Label) (i : Nat) (s : State) : (goto l i s).mtpr = s.mtpr := rfl
@[simp] theorem goto_cstate (l : Label) (i : Nat) (s : State) : (goto l i s).cstate = s.cstate := rfl
@[simp] theorem goto_busy (l : Label) (i : Nat) (s : State) : (goto l i s).busy = s.busy := rfl
@[simp] theorem goto_pend (l : Label) (i : Nat) (s : State) : (goto l i s).pend = s.pend := rfl
@[simp] theorem goto_adrack (l : Label) (i : Nat) (s : State) : (goto l i s).adrack = s.adrack := rfl
@[simp] theorem goto_datack (l : Label) (i : Nat) (s : State) : (goto l i s).datack = s.datack := rfl
@[simp] theorem goto_arblst (l : Label) (i : Nat) (s : State) : (goto l i s).arblst = s.arblst := rfl
@[simp] theorem goto_hb (l : Label) (i : Nat) (s : State) : (goto l i s).hb = s.hb := rfl
@[simp] theorem goto_hr (l : Label) (i : Nat) (s : State) : (goto l i s).hr = s.hr := rfl
@[simp] theorem goto_he (l : Label) (i : Nat) (s : State) : (goto l i s).he = s.he := rfl
@[simp] theorem goto_estate (l : Label) (i : Nat) (s : State) : (goto l i s).estate = s.estate := rfl
@[simp] theorem goto_epc (l : Label) (i : Nat) (s : State) : (goto l i s).epc = { label := l, i := i } := rfl
@[simp] theorem goto_op (l : Label) (i : Nat) (s : State) : (goto l i s).op = s.op := rfl
@[simp] theorem goto_dev (l : Label) (i : Nat) (s : State) : (goto l i s).dev = s.dev := rfl
@[simp] theorem goto_reg (l : Label) (i : Nat) (s : State) : (goto l i s).reg = s.reg := rfl
@[simp] theorem goto_val (l : Label) (i : Nat) (s : State) : (goto l i s).val = s.val := rfl
@[simp] theorem goto_n (l : Label) (i : Nat) (s : State) : (goto l i s).n = s.n := rfl
@[simp] theorem goto_wbuf (l : Label) (i : Nat) (s : State) : (goto l i s).wbuf = s.wbuf := rfl
@[simp] theorem goto_sysclk (l : Label) (i : Nat) (s : State) : (goto l i s).sysclk = s.sysclk := rfl
@[simp] theorem goto_target (l : Label) (i : Nat) (s : State) : (goto l i s).target = s.target := rfl
@[simp] theorem goto_tpr (l : Label) (i : Nat) (s : State) : (goto l i s).tpr = s.tpr := rfl
@[simp] theorem goto_snap (l : Label) (i : Nat) (s : State) : (goto l i s).snap = s.snap := rfl
@[simp] theorem goto_rbuf (l : Label) (i : Nat) (s : State) : (goto l i s).rbuf = s.rbuf := rfl
@[simp] theorem goto_status (l : Label) (i : Nat) (s : State) : (goto l i s).status = s.status := rfl
@[simp] theorem goto_rdata (l : Label) (i : Nat) (s : State) : (goto l i s).rdata = s.rdata := rfl
@[simp] theorem goto_done (l : Label) (i : Nat) (s : State) : (goto l i s).done = s.done := rfl
@[simp] theorem goto_eact (l : Label) (i : Nat) (s : State) : (goto l i s).eact = s.eact := rfl
@[simp] theorem goto_initDone (l : Label) (i : Nat) (s : State) : (goto l i s).initDone = s.initDone := rfl
@[simp] theorem goto_faults (l : Label) (i : Nat) (s : State) : (goto l i s).faults = s.faults := rfl
@[simp] theorem goto_draws (l : Label) (i : Nat) (s : State) : (goto l i s).draws = s.draws := rfl
@[simp] theorem goto_hostQ (l : Label) (i : Nat) (s : State) : (goto l i s).hostQ = s.hostQ := rfl
@[simp] theorem goto_turn (l : Label) (i : Nat) (s : State) : (goto l i s).turn = s.turn := rfl
@[simp] theorem goto_tick (l : Label) (i : Nat) (s : State) : (goto l i s).tick = s.tick := rfl

@[simp] theorem finishCommand_msa (st : CState) (s : State) : (finishCommand st s).msa = s.msa := rfl
@[simp] theorem finishCommand_mdr (st : CState) (s : State) : (finishCommand st s).mdr = s.mdr := rfl
@[simp] theorem finishCommand_mtpr (st : CState) (s : State) : (finishCommand st s).mtpr = s.mtpr := rfl
@[simp] theorem finishCommand_cstate (st : CState) (s : State) : (finishCommand st s).cstate = st := rfl
@[simp] theorem finishCommand_busy (st : CState) (s : State) : (finishCommand st s).busy = false := rfl
@[simp] theorem finishCommand_pend (st : CState) (s : State) : (finishCommand st s).pend = none := rfl
@[simp] theorem finishCommand_adrack (st : CState) (s : State) : (finishCommand st s).adrack = s.adrack := rfl
@[simp] theorem finishCommand_datack (st : CState) (s : State) : (finishCommand st s).datack = s.datack := rfl
@[simp] theorem finishCommand_arblst (st : CState) (s : State) : (finishCommand st s).arblst = s.arblst := rfl
@[simp] theorem finishCommand_hb (st : CState) (s : State) : (finishCommand st s).hb = s.hb := rfl
@[simp] theorem finishCommand_hr (st : CState) (s : State) : (finishCommand st s).hr = s.hr := rfl
@[simp] theorem finishCommand_he (st : CState) (s : State) : (finishCommand st s).he = s.he := rfl
@[simp] theorem finishCommand_estate (st : CState) (s : State) : (finishCommand st s).estate = s.estate := rfl
@[simp] theorem finishCommand_epc (st : CState) (s : State) : (finishCommand st s).epc = s.epc := rfl
@[simp] theorem finishCommand_op (st : CState) (s : State) : (finishCommand st s).op = s.op := rfl
@[simp] theorem finishCommand_dev (st : CState) (s : State) : (finishCommand st s).dev = s.dev := rfl
@[simp] theorem finishCommand_reg (st : CState) (s : State) : (finishCommand st s).reg = s.reg := rfl
@[simp] theorem finishCommand_val (st : CState) (s : State) : (finishCommand st s).val = s.val := rfl
@[simp] theorem finishCommand_n (st : CState) (s : State) : (finishCommand st s).n = s.n := rfl
@[simp] theorem finishCommand_wbuf (st : CState) (s : State) : (finishCommand st s).wbuf = s.wbuf := rfl
@[simp] theorem finishCommand_sysclk (st : CState) (s : State) : (finishCommand st s).sysclk = s.sysclk := rfl
@[simp] theorem finishCommand_target (st : CState) (s : State) : (finishCommand st s).target = s.target := rfl
@[simp] theorem finishCommand_tpr (st : CState) (s : State) : (finishCommand st s).tpr = s.tpr := rfl
@[simp] theorem finishCommand_snap (st : CState) (s : State) : (finishCommand st s).snap = s.snap := rfl
@[simp] theorem finishCommand_rbuf (st : CState) (s : State) : (finishCommand st s).rbuf = s.rbuf := rfl
@[simp] theorem finishCommand_status (st : CState) (s : State) : (finishCommand st s).status = s.status := rfl
@[simp] theorem finishCommand_rdata (st : CState) (s : State) : (finishCommand st s).rdata = s.rdata := rfl
@[simp] theorem finishCommand_done (st : CState) (s : State) : (finishCommand st s).done = s.done := rfl
@[simp] theorem finishCommand_eact (st : CState) (s : State) : (finishCommand st s).eact = s.eact := rfl
@[simp] theorem finishCommand_initDone (st : CState) (s : State) : (finishCommand st s).initDone = s.initDone := rfl
@[simp] theorem finishCommand_faults (st : CState) (s : State) : (finishCommand st s).faults = s.faults := rfl
@[simp] theorem finishCommand_draws (st : CState) (s : State) : (finishCommand st s).draws = s.draws := rfl
@[simp] theorem finishCommand_hostQ (st : CState) (s : State) : (finishCommand st s).hostQ = s.hostQ := rfl
@[simp] theorem finishCommand_turn (st : CState) (s : State) : (finishCommand st s).turn = s.turn := rfl
@[simp] theorem finishCommand_tick (st : CState) (s : State) : (finishCommand st s).tick = s.tick := rfl

@[simp] theorem toAbort_msa (s : State) : (toAbort s).msa = s.msa := rfl
@[simp] theorem toAbort_mdr (s : State) : (toAbort s).mdr = s.mdr := rfl
@[simp] theorem toAbort_mtpr (s : State) : (toAbort s).mtpr = s.mtpr := rfl
@[simp] theorem toAbort_cstate (s : State) : (toAbort s).cstate = s.cstate := rfl
@[simp] theorem toAbort_busy (s : State) : (toAbort s).busy = s.busy := rfl
@[simp] theorem toAbort_pend (s : State) : (toAbort s).pend = s.pend := rfl
@[simp] theorem toAbort_adrack (s : State) : (toAbort s).adrack = s.adrack := rfl
@[simp] theorem toAbort_datack (s : State) : (toAbort s).datack = s.datack := rfl
@[simp] theorem toAbort_arblst (s : State) : (toAbort s).arblst = s.arblst := rfl
@[simp] theorem toAbort_hb (s : State) : (toAbort s).hb = s.hb := rfl
@[simp] theorem toAbort_hr (s : State) : (toAbort s).hr = s.hr := rfl
@[simp] theorem toAbort_he (s : State) : (toAbort s).he = s.he := rfl
@[simp] theorem toAbort_estate (s : State) : (toAbort s).estate = .error := rfl
@[simp] theorem toAbort_epc (s : State) : (toAbort s).epc = { label := .abort, i := 0 } := rfl
@[simp] theorem toAbort_op (s : State) : (toAbort s).op = s.op := rfl
@[simp] theorem toAbort_dev (s : State) : (toAbort s).dev = s.dev := rfl
@[simp] theorem toAbort_reg (s : State) : (toAbort s).reg = s.reg := rfl
@[simp] theorem toAbort_val (s : State) : (toAbort s).val = s.val := rfl
@[simp] theorem toAbort_n (s : State) : (toAbort s).n = s.n := rfl
@[simp] theorem toAbort_wbuf (s : State) : (toAbort s).wbuf = s.wbuf := rfl
@[simp] theorem toAbort_sysclk (s : State) : (toAbort s).sysclk = s.sysclk := rfl
@[simp] theorem toAbort_target (s : State) : (toAbort s).target = s.target := rfl
@[simp] theorem toAbort_tpr (s : State) : (toAbort s).tpr = s.tpr := rfl
@[simp] theorem toAbort_snap (s : State) : (toAbort s).snap = s.snap := rfl
@[simp] theorem toAbort_rbuf (s : State) : (toAbort s).rbuf = s.rbuf := rfl
@[simp] theorem toAbort_status (s : State) : (toAbort s).status = s.status := rfl
@[simp] theorem toAbort_rdata (s : State) : (toAbort s).rdata = s.rdata := rfl
@[simp] theorem toAbort_done (s : State) : (toAbort s).done = s.done := rfl
@[simp] theorem toAbort_eact (s : State) : (toAbort s).eact = s.eact := rfl
@[simp] theorem toAbort_initDone (s : State) : (toAbort s).initDone = s.initDone := rfl
@[simp] theorem toAbort_faults (s : State) : (toAbort s).faults = s.faults := rfl
@[simp] theorem toAbort_draws (s : State) : (toAbort s).draws = s.draws := rfl
@[simp] theorem toAbort_hostQ (s : State) : (toAbort s).hostQ = s.hostQ := rfl
@[simp] theorem toAbort_turn (s : State) : (toAbort s).turn = s.turn := rfl
@[simp] theorem toAbort_tick (s : State) : (toAbort s).tick = s.tick := rfl

@[simp] theorem advance_msa (E : Env) (s : State) : (advance E s).msa = s.msa := rfl
@[simp] theorem advance_mdr (E : Env) (s : State) : (advance E s).mdr = s.mdr := rfl
@[simp] theorem advance_mtpr (E : Env) (s : State) : (advance E s).mtpr = s.mtpr := rfl
@[simp] theorem advance_cstate (E : Env) (s : State) : (advance E s).cstate = s.cstate := rfl
@[simp] theorem advance_busy (E : Env) (s : State) : (advance E s).busy = s.busy := rfl
@[simp] theorem advance_pend (E : Env) (s : State) : (advance E s).pend = s.pend := rfl
@[simp] theorem advance_adrack (E : Env) (s : State) : (advance E s).adrack = s.adrack := rfl
@[simp] theorem advance_datack (E : Env) (s : State) : (advance E s).datack = s.datack := rfl
@[simp] theorem advance_arblst (E : Env) (s : State) : (advance E s).arblst = s.arblst := rfl
@[simp] theorem advance_hb (E : Env) (s : State) : (advance E s).hb = s.hb := rfl
@[simp] theorem advance_hr (E : Env) (s : State) : (advance E s).hr = s.hr := rfl
@[simp] theorem advance_he (E : Env) (s : State) : (advance E s).he = s.he := rfl
@[simp] theorem advance_estate (E : Env) (s : State) : (advance E s).estate = s.estate := rfl
@[simp] theorem advance_epc (E : Env) (s : State) : (advance E s).epc = s.epc := rfl
@[simp] theorem advance_op (E : Env) (s : State) : (advance E s).op = s.op := rfl
@[simp] theorem advance_dev (E : Env) (s : State) : (advance E s).dev = s.dev := rfl
@[simp] theorem advance_reg (E : Env) (s : State) : (advance E s).reg = s.reg := rfl
@[simp] theorem advance_val (E : Env) (s : State) : (advance E s).val = s.val := rfl
@[simp] theorem advance_n (E : Env) (s : State) : (advance E s).n = s.n := rfl
@[simp] theorem advance_wbuf (E : Env) (s : State) : (advance E s).wbuf = s.wbuf := rfl
@[simp] theorem advance_sysclk (E : Env) (s : State) : (advance E s).sysclk = s.sysclk := rfl
@[simp] theorem advance_target (E : Env) (s : State) : (advance E s).target = s.target := rfl
@[simp] theorem advance_tpr (E : Env) (s : State) : (advance E s).tpr = s.tpr := rfl
@[simp] theorem advance_snap (E : Env) (s : State) : (advance E s).snap = s.snap := rfl
@[simp] theorem advance_rbuf (E : Env) (s : State) : (advance E s).rbuf = s.rbuf := rfl
@[simp] theorem advance_status (E : Env) (s : State) : (advance E s).status = s.status := rfl
@[simp] theorem advance_rdata (E : Env) (s : State) : (advance E s).rdata = s.rdata := rfl
@[simp] theorem advance_done (E : Env) (s : State) : (advance E s).done = s.done := rfl
@[simp] theorem advance_eact (E : Env) (s : State) : (advance E s).eact = s.eact := rfl
@[simp] theorem advance_initDone (E : Env) (s : State) : (advance E s).initDone = s.initDone := rfl
@[simp] theorem advance_faults (E : Env) (s : State) : (advance E s).faults = s.faults := rfl
@[simp] theorem advance_draws (E : Env) (s : State) : (advance E s).draws = s.draws := rfl
@[simp] theorem advance_hostQ (E : Env) (s : State) : (advance E s).hostQ = s.hostQ := rfl
@[simp] theorem advance_turn (E : Env) (s : State) : (advance E s).turn = E.schedule s.tick := rfl
@[simp] theorem advance_tick (E : Env) (s : State) : (advance E s).tick = s.tick + 1 := rfl

end Sys2Proof.Machine
end

