-- ==== Sys2Proof/Laws/Flags.lean ====
section
/-!
SUPPORT. What the flag computations give, once: the low byte of a status word, the engine's error test on it, the byte of a
padded register read, and the operand forms.
-/

namespace Sys2Proof.Machine

/-- The low byte of a register read is the register (R65, R105). -/
@[simp] theorem padByte_low (d : Word) (v : Byte) : (padByte d v).setWidth 8 = v := by
  have h : (d &&& 0xFFFFFF00#32).setWidth 8 = 0#8 := by
    ext i hi
    simp only [BitVec.getElem_setWidth, BitVec.getLsbD_and, BitVec.getElem_zero]
    have : ∀ i < 8, (0xFFFFFF00#32).getLsbD i = false := by decide
    simp [this i hi]
  simp only [padByte, BitVec.setWidth_or, h]
  simp

/-- BUSY is bit 0 of the status word (R23). -/
theorem statusWord_busy (d : Word) (s : State) : (statusWord d s).getLsbD 0 = s.busy := by
  unfold statusWord statusBits
  cases s.busy <;> cases s.adrack <;> cases s.datack <;> cases s.arblst <;> cases errorFlag s <;> simp

/-- Bits 4:1 of the status word when not busy (R107). -/
theorem statusWord_idle_bits (d : Word) (s : State) (h : s.busy = false) :
    (statusWord d s).getLsbD 1 = errorFlag s ∧ (statusWord d s).getLsbD 2 = s.adrack
      ∧ (statusWord d s).getLsbD 3 = s.datack ∧ (statusWord d s).getLsbD 4 = s.arblst := by
  unfold statusWord statusBits
  cases s.adrack <;> cases s.datack <;> cases s.arblst <;> cases errorFlag s <;> simp [h]

/-- `(s & 0x12) ≠ 0` is bit 1 or bit 4 (R173). -/
theorem err_eq_bits (b : Byte) : err b = (b.getLsbD 1 || b.getLsbD 4) := by
  revert b; decide

/-- The engine's test on a status word read when not busy is ERROR (R173): it "is true exactly when the last command set
ADRACK, DATACK or ARBLST". -/
theorem err_statusWord (d : Word) (s : State) (h : s.busy = false) :
    err ((statusWord d s).setWidth 8) = errorFlag s := by
  have hb := statusWord_idle_bits d s h
  rw [err_eq_bits]
  simp only [BitVec.getLsbD_setWidth]
  rw [hb.1, hb.2.2.2]
  unfold errorFlag
  cases s.adrack <;> cases s.datack <;> cases s.arblst <;> rfl

/-- A zero-extended byte passes the reserved-bits check and is itself in the low byte (R65). -/
@[simp] theorem upperClear_setWidth (b : Byte) : upperClear (b.setWidth 32) = true := by
  revert b; decide

@[simp] theorem setWidth_setWidth_byte (b : Byte) : (b.setWidth 32 : Word).setWidth 8 = b := by
  revert b; decide

/-- The direction bit of an address byte (R82). -/
@[simp] theorem rsBit_saByte (dev : DevAddr) (rs : Bool) : rsBit (some (saByte dev rs)) = rs := by
  revert dev rs; decide

/-- `{dev[6:0], rs}` is `dev * 2 + rs` (R82). -/
theorem saByte_toNat (dev : DevAddr) (rs : Bool) : (saByte dev rs).toNat = dev.toNat * 2 + rs.toNat := by
  revert dev rs; decide

/-- INIT's own divisor is legal for MTPR (R160, R162). -/
theorem legalTpr_divisor (sysclk target : Int) (h : clockOk sysclk target = true) :
    legalTpr (BitVec.ofInt 8 (divisor sysclk target)) = true := by
  simp only [clockOk, Bool.and_eq_true, decide_eq_true_eq] at h
  obtain ⟨⟨⟨-, -⟩, h1⟩, h2⟩ := h
  generalize divisor sysclk target = d at h1 h2
  obtain ⟨k, rfl⟩ := Int.eq_ofNat_of_zero_le (by omega : 0 ≤ d)
  have : ∀ k : Nat, 1 ≤ k → k ≤ 127 → legalTpr (BitVec.ofInt 8 (k : Int)) = true := by decide
  exact this k (by omega) (by omega)

end Sys2Proof.Machine
end

