-- ==== Sys2Proof/Laws/Ops.lean ====
section
/-!
SUPPORT. One lemma per shared operation that says everything it can do: register accesses, the acceptance of a command, and
requests. Proofs cite these instead of unfolding the operation.
-/

namespace Sys2Proof.Machine

/-! ### Register accesses -/

/-- The engine's accesses pass R100's checks: EngineBusy is not for it, and its data is a zero-extended byte. -/
theorem accessFault_engine (k : Kind) (b : Byte) (s : State) : accessFault .engine k (b.setWidth 32) s = none := by
  simp [accessFault]

theorem accessFault_engine_read (s : State) : accessFault .engine .rd 0#32 s = none := by simp [accessFault]

/-- The host's accesses pass R100's checks while the engine is idle and a write's bits 31:8 are 0. -/
theorem accessFault_host (k : Kind) (d : Word) (s : State) (he : s.eact = false) (hd : k = .wr → upperClear d = true) :
    accessFault .host k d s = none := by
  unfold accessFault
  rw [if_neg (by simp [he]), if_neg (fun h => by simp [hd h.1] at h)]

/-- The host faults EngineBusy while the engine runs (R100). -/
theorem accessFault_host_busy (k : Kind) (d : Word) (s : State) (he : s.eact = true) :
    accessFault .host k d s = some .engineBusy := by simp [accessFault, he]

/-- What a read can do: fault, or return the register's value and log it. -/
theorem accessRead_cases (E : Env) (a : Agent) (r : Reg) (s : State) :
    (∃ f, accessRead E a r s = .faulted f ∧
        (accessFault a .rd 0#32 s = some f ∨ accessFault a .rd 0#32 s = none ∧ readFault r s = some f)) ∨
    (accessFault a .rd 0#32 s = none ∧ readFault r s = none ∧
      accessRead E a r s = .done (readValue (E.free s.draws) r s)
        (logAccess a .rd r (readValue (E.free s.draws) r s) (draw E s).2)) := by
  unfold accessRead
  cases h1 : accessFault a .rd 0#32 s with
  | some f => exact .inl ⟨f, rfl, .inl rfl⟩
  | none =>
    cases h2 : readFault r s with
    | some f => exact .inl ⟨f, rfl, .inr ⟨rfl, rfl⟩⟩
    | none => exact .inr ⟨rfl, rfl, rfl⟩

/-- What a write can do: fault, or take effect and log it. -/
theorem accessWrite_cases (a : Agent) (r : Reg) (d : Word) (s : State) :
    (∃ f, accessWrite a r d s = .faulted f ∧
        (accessFault a .wr d s = some f ∨ accessFault a .wr d s = none ∧ writeFault r (d.setWidth 8) s = some f)) ∨
    (accessFault a .wr d s = none ∧ writeFault r (d.setWidth 8) s = none ∧
      accessWrite a r d s = .done d (logAccess a .wr r d (writeEffect r (d.setWidth 8) s))) := by
  unfold accessWrite
  cases h1 : accessFault a .wr d s with
  | some f => exact .inl ⟨f, rfl, .inl rfl⟩
  | none =>
    cases h2 : writeFault r (d.setWidth 8) s with
    | some f => exact .inl ⟨f, rfl, .inr ⟨rfl, rfl⟩⟩
    | none => exact .inr ⟨rfl, rfl, rfl⟩

/-- A host read always answers a next state: the value logged, or the fault recorded. -/
theorem hostRead_cases (E : Env) (r : Reg) (s : State) :
    (∃ f, hostRead E r s = .next (raise f .host (readInput r) s)) ∨
    (s.eact = false ∧ readFault r s = none ∧
      hostRead E r s = .next (logAccess .host .rd r (readValue (E.free s.draws) r s) (draw E s).2)) := by
  unfold hostRead
  rcases accessRead_cases E .host r s with ⟨f, h, -⟩ | ⟨h1, h2, h3⟩
  · exact .inl ⟨f, by rw [h]⟩
  · refine .inr ⟨?_, h2, by rw [h3]⟩
    by_contra he
    simp [accessFault, he] at h1

/-- A host write always answers a next state: the effect, or the fault recorded. -/
theorem hostWrite_cases (r : Reg) (d : Word) (s : State) :
    (∃ f, hostWrite r d s = .next (raise f .host (writeInput r d) s)) ∨
    (s.eact = false ∧ upperClear d = true ∧ writeFault r (d.setWidth 8) s = none ∧
      hostWrite r d s = .next (logAccess .host .wr r d (writeEffect r (d.setWidth 8) s))) := by
  unfold hostWrite
  rcases accessWrite_cases .host r d s with ⟨f, h, -⟩ | ⟨h1, h2, h3⟩
  · exact .inl ⟨f, by rw [h]⟩
  · refine .inr ⟨?_, ?_, h2, by rw [h3]⟩
    · by_contra he
      simp [accessFault, Bool.not_eq_false _ ▸ he] at h1
    · by_contra hd
      simp only [accessFault, Bool.not_eq_true _ ▸ hd] at h1
      split at h1 <;> simp at h1

/-- A host write that takes effect (R109). -/
theorem hostWrite_done (r : Reg) (d : Word) (s : State) (he : s.eact = false) (hd : upperClear d = true)
    (hw : writeFault r (d.setWidth 8) s = none) :
    hostWrite r d s = .next (logAccess .host .wr r d (writeEffect r (d.setWidth 8) s)) := by
  simp [hostWrite, accessWrite, accessFault_host .wr d s he (fun _ => hd), hw]

/-- A host read that takes effect (R109). -/
theorem hostRead_done (E : Env) (r : Reg) (s : State) (he : s.eact = false) (hr : readFault r s = none) :
    hostRead E r s = .next (logAccess .host .rd r (readValue (E.free s.draws) r s) (draw E s).2) := by
  simp [hostRead, accessRead, accessFault_host .rd 0#32 s he (by simp), hr, draw]

/-- A host write that faults in the register's own checks (R101 to R104). -/
theorem hostWrite_faulted (r : Reg) (d : Word) (s : State) (f : Fault) (he : s.eact = false) (hd : upperClear d = true)
    (hw : writeFault r (d.setWidth 8) s = some f) :
    hostWrite r d s = .next (raise f .host (writeInput r d) s) := by
  simp [hostWrite, accessWrite, accessFault_host .wr d s he (fun _ => hd), hw]

/-- A host read that faults in the register's own checks (R105 to R108). -/
theorem hostRead_faulted (E : Env) (r : Reg) (s : State) (f : Fault) (he : s.eact = false) (hr : readFault r s = some f) :
    hostRead E r s = .next (raise f .host (readInput r) s) := by
  simp [hostRead, accessRead, accessFault_host .rd 0#32 s he (by simp), hr]

/-- An engine write that takes effect. -/
theorem engineWrite_done (r : Reg) (b : Byte) (k : State → State) (s : State) (h : writeFault r b s = none) :
    engineWrite r b k s = k (logAccess .engine .wr r (b.setWidth 32) (writeEffect r b s)) := by
  simp [engineWrite, accessWrite, accessFault_engine, h]

/-- An engine write's two outcomes: its effect, or a fault that stops the engine. -/
theorem engineWrite_cases (r : Reg) (b : Byte) (k : State → State) (s : State) :
    (∃ f, writeFault r b s = some f ∧ engineWrite r b k s = raise f .engine (writeInput r (b.setWidth 32)) s) ∨
    (writeFault r b s = none ∧
      engineWrite r b k s = k (logAccess .engine .wr r (b.setWidth 32) (writeEffect r b s))) := by
  cases h : writeFault r b s with
  | some f => exact .inl ⟨f, rfl, by simp [engineWrite, accessWrite, accessFault_engine, h]⟩
  | none => exact .inr ⟨rfl, engineWrite_done r b k s h⟩

/-- An engine read that takes effect. -/
theorem engineRead_done (E : Env) (r : Reg) (k : Byte → State → State) (s : State) (h : readFault r s = none) :
    engineRead E r k s = k ((readValue (E.free s.draws) r s).setWidth 8)
      (logAccess .engine .rd r (readValue (E.free s.draws) r s) (draw E s).2) := by
  simp [engineRead, accessRead, accessFault_engine_read, h, draw]

/-- An engine read's two outcomes. -/
theorem engineRead_cases (E : Env) (r : Reg) (k : Byte → State → State) (s : State) :
    (∃ f, readFault r s = some f ∧ engineRead E r k s = raise f .engine (readInput r) s) ∨
    (readFault r s = none ∧
      engineRead E r k s = k ((readValue (E.free s.draws) r s).setWidth 8)
        (logAccess .engine .rd r (readValue (E.free s.draws) r s) (draw E s).2)) := by
  cases h : readFault r s with
  | some f => exact .inl ⟨f, rfl, by simp [engineRead, accessRead, accessFault_engine_read, h]⟩
  | none => exact .inr ⟨rfl, engineRead_done E r k s h⟩

/-- The engine's read of MDR gives the byte MDR holds (R106). -/
theorem engineRead_mdr (E : Env) (k : Byte → State → State) (s : State) (v : Byte) (hb : s.busy = false)
    (hm : s.mdr = some v) :
    engineRead E .mdr k s = k v (logAccess .engine .rd .mdr (padByte (E.free s.draws) v) (draw E s).2) := by
  rw [engineRead_done E .mdr k s (by simp [readFault, hb, hm])]
  simp [readValue, hm]

/-- `poll()` holds while busy (R172). -/
theorem poll_busy (E : Env) (k : State → State) (s : State) (h : s.busy = true) : poll E k s = s := by simp [poll, h]

/-- `poll()` when not busy: one read of the status word, kept in `s` (R172). -/
theorem poll_idle (E : Env) (k : State → State) (s : State) (h : s.busy = false) :
    poll E k s = k { logAccess .engine .rd .mcs (statusWord (E.free s.draws) s) (draw E s).2 with
      snap := (statusWord (E.free s.draws) s).setWidth 8 } := by
  simp only [poll, h, Bool.false_eq_true, if_false]
  rw [engineRead_done E .mcs _ s rfl]
  simp [readValue]

/-- The error test after a poll (R173): `toAbort` on ERROR, else on. -/
theorem checkErr_poll (d : Word) (k : State → State) (s t : State) (h : s.busy = false)
    (ht : t.snap = (statusWord d s).setWidth 8) : checkErr k t = if errorFlag s then toAbort t else k t := by
  simp [checkErr, ht, err_statusWord d s h]

/-! ### Acceptance of a command -/

/-! The fields of R83's seven words, and their rows of the admission table (R121). -/

@[simp] theorem cmdRunBit_01 : cmdRunBit 0x01#8 = true := rfl
@[simp] theorem cmdStartBit_01 : cmdStartBit 0x01#8 = false := rfl
@[simp] theorem cmdStopBit_01 : cmdStopBit 0x01#8 = false := rfl
@[simp] theorem cmdAckBit_01 : cmdAckBit 0x01#8 = false := rfl
@[simp] theorem cmdReserved_01 : cmdReserved 0x01#8 = false := rfl
@[simp] theorem cmdRunBit_03 : cmdRunBit 0x03#8 = true := rfl
@[simp] theorem cmdStartBit_03 : cmdStartBit 0x03#8 = true := rfl
@[simp] theorem cmdStopBit_03 : cmdStopBit 0x03#8 = false := rfl
@[simp] theorem cmdAckBit_03 : cmdAckBit 0x03#8 = false := rfl
@[simp] theorem cmdReserved_03 : cmdReserved 0x03#8 = false := rfl
@[simp] theorem cmdRunBit_04 : cmdRunBit 0x04#8 = false := rfl
@[simp] theorem cmdStartBit_04 : cmdStartBit 0x04#8 = false := rfl
@[simp] theorem cmdStopBit_04 : cmdStopBit 0x04#8 = true := rfl
@[simp] theorem cmdAckBit_04 : cmdAckBit 0x04#8 = false := rfl
@[simp] theorem cmdReserved_04 : cmdReserved 0x04#8 = false := rfl
@[simp] theorem cmdRunBit_05 : cmdRunBit 0x05#8 = true := rfl
@[simp] theorem cmdStartBit_05 : cmdStartBit 0x05#8 = false := rfl
@[simp] theorem cmdStopBit_05 : cmdStopBit 0x05#8 = true := rfl
@[simp] theorem cmdAckBit_05 : cmdAckBit 0x05#8 = false := rfl
@[simp] theorem cmdReserved_05 : cmdReserved 0x05#8 = false := rfl
@[simp] theorem cmdRunBit_07 : cmdRunBit 0x07#8 = true := rfl
@[simp] theorem cmdStartBit_07 : cmdStartBit 0x07#8 = true := rfl
@[simp] theorem cmdStopBit_07 : cmdStopBit 0x07#8 = true := rfl
@[simp] theorem cmdAckBit_07 : cmdAckBit 0x07#8 = false := rfl
@[simp] theorem cmdReserved_07 : cmdReserved 0x07#8 = false := rfl
@[simp] theorem cmdRunBit_09 : cmdRunBit 0x09#8 = true := rfl
@[simp] theorem cmdStartBit_09 : cmdStartBit 0x09#8 = false := rfl
@[simp] theorem cmdStopBit_09 : cmdStopBit 0x09#8 = false := rfl
@[simp] theorem cmdAckBit_09 : cmdAckBit 0x09#8 = true := rfl
@[simp] theorem cmdReserved_09 : cmdReserved 0x09#8 = false := rfl
@[simp] theorem cmdRunBit_0b : cmdRunBit 0x0B#8 = true := rfl
@[simp] theorem cmdStartBit_0b : cmdStartBit 0x0B#8 = true := rfl
@[simp] theorem cmdStopBit_0b : cmdStopBit 0x0B#8 = false := rfl
@[simp] theorem cmdAckBit_0b : cmdAckBit 0x0B#8 = true := rfl
@[simp] theorem cmdReserved_0b : cmdReserved 0x0B#8 = false := rfl
@[simp] theorem admitted_01 (st : CState) (rs : Bool) : admitted st rs 0x1#4 = (st == .tx || st == .rx) := rfl
@[simp] theorem admitted_03 (st : CState) (rs : Bool) : admitted st rs 0x3#4 = true := rfl
@[simp] theorem admitted_04 (st : CState) (rs : Bool) : admitted st rs 0x4#4 = true := rfl
@[simp] theorem admitted_05 (st : CState) (rs : Bool) : admitted st rs 0x5#4 = (st == .tx || st == .rx) := rfl
@[simp] theorem admitted_07 (st : CState) (rs : Bool) : admitted st rs 0x7#4 = true := rfl
@[simp] theorem admitted_09 (st : CState) (rs : Bool) : admitted st rs 0x9#4 = (st == .rx) := rfl
@[simp] theorem admitted_0b (st : CState) (rs : Bool) : admitted st rs 0xB#4 = rs := rfl

/-- The words any state admits are R83's seven. -/
theorem admitted_words (st : CState) (rs : Bool) (w : Byte) (hr : cmdReserved w = false)
    (ha : admitted st rs (w.setWidth 4) = true) :
    w = 0x01#8 ∨ w = 0x03#8 ∨ w = 0x04#8 ∨ w = 0x05#8 ∨ w = 0x07#8 ∨ w = 0x09#8 ∨ w = 0x0B#8 := by
  cases st <;> cases rs <;> revert w <;> decide

/-- What R120 and R121 ask of an accepted command: the STOP in Idle, or the clock, and for each word its bus state and the
registers it uses. -/
theorem acceptFault_none (w : Byte) (s : State) (h : acceptFault w s = none) :
    (w = 0x04#8 ∧ s.cstate = .idle) ∨
    (s.mtpr ≠ none ∧
      ((w = 0x01#8 ∧ (s.cstate = .tx ∧ s.mdr ≠ none ∨ s.cstate = .rx)) ∨
       (w = 0x03#8 ∧ s.msa ≠ none ∧ (rsBit s.msa = false → s.mdr ≠ none)) ∨
       (w = 0x04#8 ∧ s.cstate ≠ .idle) ∨
       (w = 0x05#8 ∧ (s.cstate = .tx ∧ s.mdr ≠ none ∨ s.cstate = .rx)) ∨
       (w = 0x07#8 ∧ s.msa ≠ none ∧ (rsBit s.msa = false → s.mdr ≠ none)) ∨
       (w = 0x09#8 ∧ s.cstate = .rx) ∨
       (w = 0x0B#8 ∧ s.msa ≠ none ∧ rsBit s.msa = true))) := by
  unfold acceptFault at h
  split at h
  · simp at h
  next h1 =>
  split at h
  · simp at h
  next h2 =>
  split at h
  · simp at h
  next h3 =>
  rcases admitted_words _ _ w (by simpa using h1) (by simpa using h3) with rfl | rfl | rfl | rfl | rfl | rfl | rfl <;>
    cases hc : s.cstate <;> cases hr : rsBit s.msa <;> by_cases ht : s.mtpr = none <;>
    by_cases hd : s.mdr = none <;> simp_all [cmdDir]

end Sys2Proof.Machine
end

