-- ==== Sys2Proof/Laws/Controller.lean ====
section
/-!
SUPPORT. What the controller's completion step can do, once (41_bus_commands.md R122 to R130): what it never changes, and how
each command ends.
-/

namespace Sys2Proof.Machine

/-- All that no completion changes: MSA and MTPR, the engine's state, HR and HE, the fault record, the host's input, the
turn. -/
structure CtlFrame (s t : State) : Prop where
  msa : t.msa = s.msa
  mtpr : t.mtpr = s.mtpr
  hr : t.hr = s.hr
  he : t.he = s.he
  estate : t.estate = s.estate
  epc : t.epc = s.epc
  op : t.op = s.op
  dev : t.dev = s.dev
  reg : t.reg = s.reg
  val : t.val = s.val
  n : t.n = s.n
  wbuf : t.wbuf = s.wbuf
  sysclk : t.sysclk = s.sysclk
  target : t.target = s.target
  tpr : t.tpr = s.tpr
  snap : t.snap = s.snap
  rbuf : t.rbuf = s.rbuf
  status : t.status = s.status
  rdata : t.rdata = s.rdata
  done : t.done = s.done
  eact : t.eact = s.eact
  initDone : t.initDone = s.initDone
  faults : t.faults = s.faults
  hostQ : t.hostQ = s.hostQ
  turn : t.turn = s.turn
  tick : t.tick = s.tick

theorem CtlFrame.refl (s : State) : CtlFrame s s := by constructor <;> rfl

theorem CtlFrame.trans {s t u : State} (h : CtlFrame s t) (k : CtlFrame t u) : CtlFrame s u := by
  constructor <;> simp [h.1, h.2, h.3, h.4, h.5, h.6, h.7, h.8, h.9, h.10, h.11, h.12, h.13, h.14, h.15, h.16, h.17, h.18,
    h.19, h.20, h.21, h.22, h.23, h.24, h.25, h.26, k.1, k.2, k.3, k.4, k.5, k.6, k.7, k.8, k.9, k.10, k.11, k.12, k.13,
    k.14, k.15, k.16, k.17, k.18, k.19, k.20, k.21, k.22, k.23, k.24, k.25, k.26]

theorem frame_emit (e : BusEvent) (s : State) : CtlFrame s (emit e s) := by constructor <;> rfl

theorem frame_byteOrDraw (E : Env) (b : Option Byte) (s : State) : CtlFrame s (byteOrDraw E b s).2 := by
  cases b <;> constructor <;> rfl

theorem frame_endCommand (stop : Bool) (st : CState) (s : State) : CtlFrame s (endCommand stop st s) := by
  cases stop <;> constructor <;> rfl

theorem frame_lost (E : Env) (c : Pend) (s : State) : CtlFrame s (lost E c s) := by
  unfold lost; split <;> constructor <;> rfl

theorem frame_addressNacked (E : Env) (c : Pend) (s : State) : CtlFrame s (addressNacked E c s) := by
  unfold addressNacked endOnNack
  split
  · exact .trans (t := unspecifyMdr E { s with adrack := true }) (by constructor <;> rfl) (frame_endCommand _ _ _)
  · exact .trans (t := { s with adrack := true }) (by constructor <;> rfl) (frame_endCommand _ _ _)

theorem frame_rxPhase (E : Env) (ack : Bool) (s : State) : CtlFrame s (rxPhase E ack s).2 := by
  unfold rxPhase; split <;> constructor <;> rfl

theorem frame_txPart (E : Env) (c : Pend) (s : State) : CtlFrame s (txPart E c s) := by
  have hb : CtlFrame s (txPhase E (byteOrDraw E c.data s).1 (byteOrDraw E c.data s).2).2 :=
    .trans (frame_byteOrDraw E c.data s) (frame_emit _ _)
  unfold txPart
  dsimp only
  split
  · exact hb.trans (frame_lost _ _ _)
  · exact hb.trans (.trans (t := { (txPhase E (byteOrDraw E c.data s).1 (byteOrDraw E c.data s).2).2 with datack := true })
      (by constructor <;> rfl) (frame_endCommand _ _ _))
  · exact hb.trans (frame_endCommand _ _ _)

theorem frame_rxPart (E : Env) (c : Pend) (s : State) : CtlFrame s (rxPart E c s) := by
  unfold rxPart
  dsimp only
  split
  · exact (frame_rxPhase E _ s).trans (frame_endCommand _ _ _)
  · exact (frame_rxPhase E _ s).trans (frame_lost _ _ _)

theorem frame_dataPart (E : Env) (c : Pend) (s : State) : CtlFrame s (dataPart E c s) := by
  unfold dataPart
  split
  · exact frame_txPart E c s
  · exact frame_rxPart E c s

theorem frame_startPart (E : Env) (c : Pend) (s : State) : CtlFrame s (startPart E c s) := by
  have hb : CtlFrame s (addrPhase E (byteOrDraw E c.addr (startPhase c.origin s)).1
      (byteOrDraw E c.addr (startPhase c.origin s)).2).2 :=
    .trans (frame_emit _ s) (.trans (frame_byteOrDraw E c.addr _) (frame_emit _ _))
  unfold startPart
  dsimp only
  split
  · exact hb.trans (frame_lost _ _ _)
  · exact hb.trans (frame_addressNacked _ _ _)
  · exact hb.trans (frame_dataPart _ _ _)

/-- The phases of a command change nothing outside the controller (R122). -/
theorem frame_runCommand (E : Env) (c : Pend) (s : State) : CtlFrame s (runCommand E c s) := by
  unfold runCommand
  split
  · exact (frame_emit .stop s).trans (by constructor <;> rfl)
  · split
    · exact frame_startPart E c s
    · exact frame_dataPart E c s

/-- What a completion step can be (R122, R140): nothing while there is no command or the oracle stalls, else the command's
phases. -/
theorem complete_cases (E : Env) (s : State) :
    complete E s = s ∨
    (s.busy = true ∧ E.oracle.stall s.hb = false ∧ ∃ c, s.pend = some c ∧ complete E s = runCommand E c s) := by
  unfold complete
  split
  next hb =>
    split
    · exact .inl rfl
    next c hc =>
      split
      · exact .inl rfl
      next hs => exact .inr ⟨hb, by simpa using hs, c, hc, rfl⟩
  · exact .inl rfl

/-- The completion step of a command in flight, when the oracle does not stall. -/
theorem complete_running (E : Env) (s : State) (c : Pend) (hb : s.busy = true) (hc : s.pend = some c)
    (hs : E.oracle.stall s.hb = false) : complete E s = runCommand E c s := by
  simp [complete, hb, hc, hs]

/-- How a command ends (R122, R128, R129, R130): not busy, its latch empty, at most one error latch, with STOP in Idle;
on an error without STOP in Hold or Idle; without an error in the state its data phase leaves; and MDR holds a value after a
receive. -/
structure Settled (c : Pend) (s t : State) : Prop where
  busy : t.busy = false
  pend : t.pend = none
  oneLatch : OneLatch t
  stopped : c.stop = true → t.cstate = .idle
  failed : errorFlag t = true → t.cstate = .hold ∨ t.cstate = .idle
  clean : errorFlag t = false → c.stop = false →
    t.cstate = (if c.dir = some .tx then .tx else if c.ack then .rx else .hold)
  received : c.run = true → c.dir = some .rx → t.mdr ≠ none
  kept : s.mdr ≠ none → t.mdr ≠ none

theorem settled_lost (E : Env) (c : Pend) (s : State) (h : errorFlag s = false) : Settled c s (lost E c s) := by
  simp only [errorFlag, Bool.or_eq_false_iff] at h
  unfold lost
  split
  · constructor <;> simp [OneLatch, errorFlag, h]
  next hd => constructor <;> simp [OneLatch, errorFlag, h, hd]

theorem settled_addressNacked (E : Env) (c : Pend) (s : State) (h : errorFlag s = false) :
    Settled c s (addressNacked E c s) := by
  simp only [errorFlag, Bool.or_eq_false_iff] at h
  unfold addressNacked endOnNack endCommand stopAndFinish
  split
  · split
    · constructor <;> simp [OneLatch, errorFlag, h]
    next hs => constructor <;> simp [OneLatch, errorFlag, h, hs]
  next hd =>
    split
    · constructor <;> simp [OneLatch, errorFlag, h, hd]
    next hs => constructor <;> simp [OneLatch, errorFlag, h, hd, hs]

/-- A transmit, Ack, Nack or ArbLost, from a state with no error. -/
theorem settled_txPart (E : Env) (c : Pend) (s : State) (h : errorFlag s = false) (hd : c.dir = some .tx) :
    Settled c s (txPart E c s) := by
  have hb : ∀ f : State → State, (∀ u : State, errorFlag u = false → Settled c u (f u)) →
      Settled c s (f (txPhase E (byteOrDraw E c.data s).1 (byteOrDraw E c.data s).2).2) := by
    intro f hf
    have hu : errorFlag (txPhase E (byteOrDraw E c.data s).1 (byteOrDraw E c.data s).2).2 = false := by
      cases c.data <;> simpa [txPhase, byteOrDraw, errorFlag] using h
    have hm : (txPhase E (byteOrDraw E c.data s).1 (byteOrDraw E c.data s).2).2.mdr = s.mdr := by
      cases c.data <;> simp [txPhase, byteOrDraw]
    have k := hf _ hu
    exact ⟨k.1, k.2, k.3, k.4, k.5, k.6, k.7, by rw [← hm]; exact k.8⟩
  unfold txPart
  dsimp only
  split
  · exact hb (lost E c) (fun u hu => settled_lost E c u hu)
  · refine hb (fun u => endOnNack c { u with datack := true }) (fun u hu => ?_)
    simp only [errorFlag, Bool.or_eq_false_iff] at hu
    unfold endOnNack endCommand stopAndFinish
    split
    · constructor <;> simp [OneLatch, errorFlag, hu, hd]
    next hs => constructor <;> simp [OneLatch, errorFlag, hu, hd, hs]
  · refine hb (fun u => endCommand c.stop .tx u) (fun u hu => ?_)
    simp only [errorFlag, Bool.or_eq_false_iff] at hu
    unfold endCommand stopAndFinish
    split
    next hs => constructor <;> simp [OneLatch, errorFlag, hu, hd, hs]
    next hs => constructor <;> simp [OneLatch, errorFlag, hu, hd, hs]

/-- A receive, byte or ArbLost, from a state with no error. -/
theorem settled_rxPart (E : Env) (c : Pend) (s : State) (h : errorFlag s = false) (hd : c.dir ≠ some .tx) :
    Settled c s (rxPart E c s) := by
  unfold rxPart rxPhase
  dsimp only
  cases E.oracle.rx s.hb (masterAck c.ack) with
  | byte v =>
    simp only [errorFlag, Bool.or_eq_false_iff] at h
    simp only [if_true]
    unfold endCommand stopAndFinish
    split
    next hs => constructor <;> simp [OneLatch, errorFlag, h, hd, hs]
    next hs => constructor <;> simp [OneLatch, errorFlag, h, hd, hs]
  | arbLost =>
    simp only [Bool.false_eq_true, if_false]
    have hu : errorFlag (emit .rxLost (unspecifyMdr E s)) = false := by simpa [errorFlag] using h
    have k := settled_lost E c _ hu
    exact ⟨k.1, k.2, k.3, k.4, k.5, k.6, k.7, fun _ => k.8 (by simp)⟩

theorem settled_dataPart (E : Env) (c : Pend) (s : State) (h : errorFlag s = false) : Settled c s (dataPart E c s) := by
  unfold dataPart
  split
  next hd => exact settled_txPart E c s h hd
  next hd => exact settled_rxPart E c s h hd

theorem settled_startPart (E : Env) (c : Pend) (s : State) (h : errorFlag s = false) : Settled c s (startPart E c s) := by
  have hb : ∀ f : State → State, (∀ u : State, errorFlag u = false → Settled c u (f u)) →
      Settled c s (f (addrPhase E (byteOrDraw E c.addr (startPhase c.origin s)).1
        (byteOrDraw E c.addr (startPhase c.origin s)).2).2) := by
    intro f hf
    have hu : errorFlag (addrPhase E (byteOrDraw E c.addr (startPhase c.origin s)).1
        (byteOrDraw E c.addr (startPhase c.origin s)).2).2 = false := by
      cases c.addr <;> simpa [addrPhase, startPhase, byteOrDraw, errorFlag] using h
    have hm : (addrPhase E (byteOrDraw E c.addr (startPhase c.origin s)).1
        (byteOrDraw E c.addr (startPhase c.origin s)).2).2.mdr = s.mdr := by
      cases c.addr <;> simp [addrPhase, startPhase, byteOrDraw]
    have k := hf _ hu
    exact ⟨k.1, k.2, k.3, k.4, k.5, k.6, k.7, by rw [← hm]; exact k.8⟩
  unfold startPart
  dsimp only
  split
  · exact hb (lost E c) (fun u hu => settled_lost E c u hu)
  · exact hb (addressNacked E c) (fun u hu => settled_addressNacked E c u hu)
  · exact hb (dataPart E c) (fun u hu => settled_dataPart E c u hu)

/-- Every admitted command settles (R122). -/
theorem settled_runCommand (E : Env) (c : Pend) (s : State) (h : PendOk c s) : Settled c s (runCommand E c s) := by
  have he := h.noError
  unfold runCommand
  split
  next hb =>
    have hst := (h.stopOnly hb.2).1
    simp only [errorFlag, Bool.or_eq_false_iff] at he
    unfold stopAndFinish
    constructor <;> simp [OneLatch, errorFlag, he, hb, hst]
  next hb =>
    split
    · exact settled_startPart E c s he
    · exact settled_dataPart E c s he

end Sys2Proof.Machine
end

