-- ==== Sys2Proof/Laws/Engine.lean ====
section
/-!
SUPPORT. One lemma per operation of the engine that says what it leaves alone: draws and results (R171), a register write's
effect, and the blocks the engine's steps are built from (R172, R173).
-/

namespace Sys2Proof.Machine

/-! ### Draws and results -/

/-- Drawing bytes changes only the count of draws. -/
theorem drawBytes_state (E : Env) (k : Nat) (s : State) : (drawBytes E k s).2 = { s with draws := s.draws + k } := by
  induction k generalizing s with
  | zero => rfl
  | succ k ih => rw [drawBytes, ih]; simp [drawByte, draw]; omega

/-- As many bytes are drawn as asked for. -/
theorem drawBytes_length (E : Env) (k : Nat) (s : State) : (drawBytes E k s).1.length = k := by
  induction k generalizing s with
  | zero => rfl
  | succ k ih => rw [drawBytes]; simp [ih]

/-- Computing a result changes only the count of draws. -/
theorem finishResult_state (E : Env) (st : Status) (s : State) :
    (finishResult E st s).2 = { s with draws := (finishResult E st s).2.draws } := by
  unfold finishResult
  split <;> first | rfl | (split <;> first | rfl | simp [drawBytes_state])

/-- A request that is OK draws nothing. -/
theorem finishResult_ok (E : Env) (s : State) : (finishResult E .ok s).2 = s := by
  unfold finishResult; split <;> rfl

/-- Finishing a request (R171): status, IDLE, `eact` off, `done` on, one entry in HE; the count of draws apart, nothing else. -/
theorem finishRequest_state (E : Env) (st : Status) (s : State) :
    finishRequest E st s = { s with
      draws := (finishResult E st s).2.draws, status := st, estate := .idle, eact := false, done := true,
      he := s.he ++ [{ request := latchedRequest s, result := (finishResult E st s).1 }] } := by
  simp only [finishRequest]
  rw [finishResult_state]

/-! ### The host's requests -/

/-- A request's two outcomes at the host: a fault, or acceptance (R170). -/
theorem hostRequest_cases (E : Env) (op : Op) (o : Operands) (s : State) :
    (∃ f, requestFault E op o s = some f ∧ hostRequest E op o s = .next (raise f .host (reqInput op o) s)) ∨
    (requestFault E op o s = none ∧ hostRequest E op o s = .next (acceptRequest E op o s)) := by
  unfold hostRequest
  cases h : requestFault E op o s with
  | some f => exact .inl ⟨f, rfl, rfl⟩
  | none => exact .inr ⟨rfl, rfl⟩

/-- What R170 asks of an accepted request. -/
theorem requestFault_none (E : Env) (op : Op) (o : Operands) (s : State) (h : requestFault E op o s = none) :
    s.eact = false ∧ operandsBad E.maxBurst op o = false ∧ (Op.isTxn op = true → s.initDone = true) := by
  unfold requestFault at h
  split at h
  · simp at h
  next h1 =>
  split at h
  · simp at h
  next h2 =>
  split at h
  · simp at h
  next h3 => exact ⟨by simpa using h1, by simpa using h2, fun k => by simpa [k] using h3⟩

/-- Acceptance of a request that does not finish at once (R170). -/
theorem acceptRequest_running (E : Env) (op : Op) (o : Operands) (s : State) (h : ¬ (Op.isBurst op = true ∧ o.n = 0)) :
    acceptRequest E op o s = { latchRequest op o s with
      eact := true, done := false, estate := .idle, epc := { label := if op = .init then .i0 else .t0, i := 0 } } := by
  unfold acceptRequest
  rw [if_neg h]

/-! ### Register writes -/

/-- What no register write changes (R101 to R104). -/
theorem writeEffect_frame (r : Reg) (b : Byte) (s : State) :
    (writeEffect r b s).faults = s.faults ∧ (writeEffect r b s).eact = s.eact ∧ (writeEffect r b s).op = s.op ∧
    (writeEffect r b s).initDone = s.initDone ∧ (writeEffect r b s).n = s.n ∧ (writeEffect r b s).estate = s.estate ∧
    (writeEffect r b s).epc = s.epc ∧ (writeEffect r b s).wbuf = s.wbuf ∧ (writeEffect r b s).dev = s.dev ∧
    (writeEffect r b s).reg = s.reg ∧ (writeEffect r b s).val = s.val ∧ (writeEffect r b s).cstate = s.cstate ∧
    (writeEffect r b s).hb = s.hb ∧ (writeEffect r b s).hr = s.hr ∧ (writeEffect r b s).he = s.he := by
  cases r <;> simp [writeEffect, acceptEffect]
  split <;> simp

/-! ### The blocks of the engine's steps -/

/-- The state after the read of a poll: one access in HR, one draw, the word's low byte in `s` (R172). -/
def polled (E : Env) (s : State) : State :=
  { logAccess .engine .rd .mcs (statusWord (E.free s.draws) s) (draw E s).2 with
    snap := (statusWord (E.free s.draws) s).setWidth 8 }

/-- A poll holds while busy, else goes on from `polled` (R172). -/
theorem poll_cases (E : Env) (k : State → State) (s : State) :
    (s.busy = true ∧ poll E k s = s) ∨ (s.busy = false ∧ poll E k s = k (polled E s)) := by
  cases hb : s.busy
  · exact .inr ⟨rfl, poll_idle E k s hb⟩
  · exact .inl ⟨rfl, poll_busy E k s hb⟩

/-- The error test after a poll is ERROR (R173). -/
theorem err_polled (E : Env) (s : State) (hb : s.busy = false) : err (polled E s).snap = errorFlag s := err_statusWord _ s hb

/-- The error path after a poll is taken exactly on ERROR (R173, R177). -/
theorem checkErr_polled (E : Env) (k : State → State) (s : State) (hb : s.busy = false) :
    checkErr k (polled E s) = if errorFlag s then toAbort (polled E s) else k (polled E s) := by
  unfold checkErr
  rw [err_polled E s hb]

/-- The issue of a command that no check refuses (R120, R175). -/
theorem engineCommand_done (w : Byte) (e : EState) (l : Label) (i : Nat) (s : State) (hb : s.busy = false)
    (h : acceptFault w s = none) :
    engineCommand w e l i s =
      goto l i { logAccess .engine .wr .mcs (w.setWidth 32) (acceptEffect w s) with estate := e } := by
  unfold engineCommand
  rw [engineWrite_done .mcs w _ s (by simp [writeFault, hb, h])]
  rfl

/-- A write of MSA or MDR by the engine, when not busy (R101, R102). -/
theorem engineWrite_msa (b : Byte) (k : State → State) (s : State) (hb : s.busy = false) :
    engineWrite .msa b k s = k (logAccess .engine .wr .msa (b.setWidth 32) { s with msa := some b }) :=
  engineWrite_done .msa b k s (by simp [writeFault, hb])

theorem engineWrite_mdr (b : Byte) (k : State → State) (s : State) (hb : s.busy = false) :
    engineWrite .mdr b k s = k (logAccess .engine .wr .mdr (b.setWidth 32) { s with mdr := some b }) :=
  engineWrite_done .mdr b k s (by simp [writeFault, hb])

end Sys2Proof.Machine
end

