-- ==== Sys2Proof/Laws/Invariant.lean ====
section
/-!
SUPPORT. The part of the invariant that does not look at the engine's position, and how the shared operations keep it. A
proof about a step shows this part by these lemmas, and is left with the position it arrives at.
-/

namespace Sys2Proof.Machine

/-- The invariant without its clauses on a running engine. -/
structure Base (maxBurst : Nat) (s : State) : Prop where
  busyPend : s.busy = s.pend.isSome
  pendOk : ∀ c, s.pend = some c → PendOk c s
  oneLatch : OneLatch s
  legalClock : ∀ v, s.mtpr = some v → legalTpr v = true
  held : s.cstate ≠ .idle → s.msa ≠ none ∧ s.mtpr ≠ none
  initClock : s.initDone = true → s.mtpr ≠ none
  rbufSize : s.rbuf.length = maxBurst
  count : s.n ≤ maxBurst
  wbufSize : s.op = .writeBurst → s.wbuf.length = s.n

theorem Inv.base {m : Nat} {s : State} (h : Inv m s) : Base m s :=
  ⟨h.busyPend, h.pendOk, h.oneLatch, h.legalClock, h.held, h.initClock, h.rbufSize, h.count, h.wbufSize⟩

/-- With the engine idle the rest of the invariant is R32's. -/
theorem Base.inv {m : Nat} {s : State} (h : Base m s) (he : s.eact = false) (hs : s.estate = .idle) : Inv m s :=
  ⟨h.busyPend, h.pendOk, h.oneLatch, h.legalClock, h.held, fun _ => hs, h.initClock, h.rbufSize, h.count, h.wbufSize,
    by simp [he], by simp [he], by simp [he]⟩

/-- A state that agrees on the fields the invariant reads outside the engine keeps this part of it. -/
theorem Base.transfer {m : Nat} {s t : State} (h : Base m s) (e1 : t.busy = s.busy) (e2 : t.pend = s.pend)
    (e3 : t.adrack = s.adrack) (e4 : t.datack = s.datack) (e5 : t.arblst = s.arblst) (e6 : t.mtpr = s.mtpr)
    (e7 : t.cstate = s.cstate) (e8 : t.msa = s.msa) (e9 : t.initDone = s.initDone)
    (e10 : t.rbuf.length = s.rbuf.length) (e11 : t.n = s.n) (e12 : t.op = s.op) (e13 : t.wbuf = s.wbuf)
    (e14 : t.mdr = s.mdr) : Base m t := by
  refine ⟨by rw [e1, e2]; exact h.busyPend, ?_, ?_, by rw [e6]; exact h.legalClock, by rw [e7, e8, e6]; exact h.held,
    by rw [e9, e6]; exact h.initClock, by rw [e10]; exact h.rbufSize, by rw [e11]; exact h.count,
    by rw [e12, e13, e11]; exact h.wbufSize⟩
  · rw [e2]
    intro c hc
    have k := h.pendOk c hc
    have he : errorFlag t = errorFlag s := by simp [errorFlag, e3, e4, e5]
    exact ⟨by rw [e7]; exact k.origin, by rw [e8, e14]; exact k.latched, by rw [he]; exact k.noError,
      by rw [e6]; exact k.clock, k.started, by rw [e7]; exact k.going, by rw [e7]; exact k.stopOnly, k.sends, k.acks⟩
  · unfold OneLatch
    rw [e3, e4, e5]
    exact h.oneLatch

theorem Base.logAccess {m : Nat} {s : State} (h : Base m s) (a : Agent) (k : Kind) (r : Reg) (v : Word) :
    Base m (logAccess a k r v s) := h.transfer rfl rfl rfl rfl rfl rfl rfl rfl rfl rfl rfl rfl rfl rfl

theorem Base.goto {m : Nat} {s : State} (h : Base m s) (l : Label) (i : Nat) : Base m (goto l i s) :=
  h.transfer rfl rfl rfl rfl rfl rfl rfl rfl rfl rfl rfl rfl rfl rfl

theorem Base.estate {m : Nat} {s : State} (h : Base m s) (e : EState) : Base m { s with estate := e } :=
  h.transfer rfl rfl rfl rfl rfl rfl rfl rfl rfl rfl rfl rfl rfl rfl

theorem Base.polled {m : Nat} {s : State} (h : Base m s) (E : Env) : Base m (polled E s) :=
  h.transfer rfl rfl rfl rfl rfl rfl rfl rfl rfl rfl rfl rfl rfl rfl

theorem Base.finishRequest {m : Nat} {s : State} (h : Base m s) (E : Env) (st : Status) : Base m (finishRequest E st s) := by
  rw [finishRequest_state]
  exact h.transfer rfl rfl rfl rfl rfl rfl rfl rfl rfl rfl rfl rfl rfl rfl

/-- Nothing is latched while not busy (R26). -/
theorem Base.pend_none {m : Nat} {s : State} (h : Base m s) (hb : s.busy = false) : s.pend = none := by
  have := h.busyPend
  rw [hb] at this
  simpa using this.symm

/-- What acceptance latches is what `PendOk` says (R120, R121). -/
theorem pendOk_accepted (w : Byte) (s : State) (h : acceptFault w s = none) (hi : ¬ (w.setWidth 4 = 0x4#4 ∧ s.cstate = .idle)) :
    PendOk (latchedPend w s) { clearLatches s with pend := some (latchedPend w s), busy := true } := by
  rcases acceptFault_none w s h with ⟨rfl, hc⟩ | ⟨hm, g⟩
  · exact absurd ⟨rfl, hc⟩ hi
  clear h
  rcases g with ⟨rfl, g⟩ | ⟨rfl, g⟩ | ⟨rfl, g⟩ | ⟨rfl, g⟩ | ⟨rfl, g⟩ | ⟨rfl, g⟩ | ⟨rfl, g⟩
  · rcases g with g | g <;> constructor <;> simp [latchedPend, errorFlag, cmdDir, hm, g]
  · cases hr : rsBit s.msa <;> constructor <;> simp_all [latchedPend, errorFlag, cmdDir]
  · constructor <;> simp [latchedPend, errorFlag, cmdDir, hm, g]
  · rcases g with g | g <;> constructor <;> simp [latchedPend, errorFlag, cmdDir, hm, g]
  · cases hr : rsBit s.msa <;> constructor <;> simp_all [latchedPend, errorFlag, cmdDir]
  · constructor <;> simp [latchedPend, errorFlag, cmdDir, hm, g]
  · constructor <;> simp_all [latchedPend, errorFlag, cmdDir]

/-- A register write that no check refuses (R101 to R104, R120). -/
theorem Base.writeEffect {m : Nat} {s : State} (h : Base m s) (r : Reg) (b : Byte) (hw : writeFault r b s = none) :
    Base m (writeEffect r b s) := by
  unfold writeFault at hw
  split at hw
  · simp at hw
  next hb =>
  have hp := h.pend_none (by simpa using hb)
  cases r with
  | msa =>
    exact ⟨h.busyPend, fun c hc => by simp_all [Machine.writeEffect], h.oneLatch, h.legalClock,
      fun k => ⟨by simp [Machine.writeEffect], (h.held k).2⟩, h.initClock, h.rbufSize, h.count, h.wbufSize⟩
  | mdr =>
    exact ⟨h.busyPend, fun c hc => by simp_all [Machine.writeEffect], h.oneLatch, h.legalClock, h.held, h.initClock,
      h.rbufSize, h.count, h.wbufSize⟩
  | mtpr =>
    simp only at hw
    split at hw
    · simp at hw
    next h1 =>
    split at hw
    · simp at hw
    next h2 =>
    split at hw
    · simp at hw
    next h3 =>
    refine ⟨h.busyPend, fun c hc => by simp_all [Machine.writeEffect], h.oneLatch, ?_, ?_, ?_, h.rbufSize, h.count,
      h.wbufSize⟩
    · intro v hv
      simp only [Machine.writeEffect, Option.some.injEq] at hv
      subst hv
      simp only [legalTpr, Bool.and_eq_true, bne_iff_ne]
      exact ⟨by simpa using h2, fun e => h3 (by simp [e])⟩
    · intro k
      exact absurd k (by simpa [Machine.writeEffect] using h1)
    · simp [Machine.writeEffect]
  | mcs =>
    simp only at hw
    simp only [Machine.writeEffect, acceptEffect]
    split
    · exact ⟨h.busyPend, fun c hc => by simp_all, by simp [OneLatch], h.legalClock, h.held, h.initClock, h.rbufSize,
        h.count, h.wbufSize⟩
    next hi =>
      refine ⟨rfl, ?_, by simp [OneLatch], h.legalClock, h.held, h.initClock, h.rbufSize, h.count, h.wbufSize⟩
      intro c hc
      cases hc
      exact pendOk_accepted b s hw hi

/-- A step of a running transaction that keeps this part, its request and INIT's mark, and arrives at a position that is as
it must be. -/
theorem Inv.moves {m : Nat} {s t : State} (h : Inv m s) (he : s.eact = true) (b : Base m t) (e1 : t.eact = s.eact)
    (e2 : t.op = s.op) (e3 : t.initDone = s.initDone) (e4 : t.n = s.n) (hop : s.op ≠ .init) (hE : EngineAtOk t) : Inv m t :=
  ⟨b.busyPend, b.pendOk, b.oneLatch, b.legalClock, b.held, by simp [e1, he], b.initClock, b.rbufSize, b.count, b.wbufSize,
    by rw [e1, e2, e3, e4]; exact h.running, fun _ hi => absurd (e2 ▸ hi) hop, fun _ => hE⟩

end Sys2Proof.Machine
end

