-- ==== Sys2Proof/Laws/PerInstr.lean ====
section
/-!
SUPPORT. One lemma per constructor of Instr: its encoding stands on its own row of spec/opcode_table.json, in that row's format
and with that row's `match` bits, whatever its operands (30_encoding.md R81, R83, R86).
-/

namespace Sys2Proof.Laws.Encoded

/-- The formats of the opcode table (R80). -/
inductive Format where
  | acc | cmd | req
deriving DecidableEq, Repr

/-- The format of an input and its opcode bits, numbered as the table numbers them. -/
def opcodeBits : Input → Format × Nat
  | .acc bits _ _ => (.acc, bits.toNat)
  | .cmd w => (.cmd, w.toNat)
  | .req op _ => (.req, op.toNat)

/-- Each instruction's row of the table: its format and its `match`. -/
def row : Instr → Format × Nat
  | .rdMsa => (.acc, 0x0)
  | .rdMcs => (.acc, 0x4)
  | .rdMdr => (.acc, 0x8)
  | .rdMtpr => (.acc, 0xC)
  | .wrMsa _ => (.acc, 0x1000)
  | .wrMcs _ => (.acc, 0x1004)
  | .wrMdr _ => (.acc, 0x1008)
  | .wrMtpr _ => (.acc, 0x100C)
  | .cmdRun => (.cmd, 0x1)
  | .cmdStartRun => (.cmd, 0x3)
  | .cmdStop => (.cmd, 0x4)
  | .cmdStopRun => (.cmd, 0x5)
  | .cmdStartStopRun => (.cmd, 0x7)
  | .cmdRunAck => (.cmd, 0x9)
  | .cmdStartRunAck => (.cmd, 0xB)
  | .init _ _ => (.req, 0x0)
  | .writeOne _ _ _ => (.req, 0x1)
  | .readOne _ _ => (.req, 0x2)
  | .writeBurst _ _ _ _ => (.req, 0x3)
  | .readBurst _ _ _ => (.req, 0x4)

/-- The instruction's encoding carries its row's bits. -/
def Statement (i : Instr) : Prop := opcodeBits (encode i) = row i

theorem rdMsa : Statement .rdMsa := rfl
theorem rdMcs : Statement .rdMcs := rfl
theorem rdMdr : Statement .rdMdr := rfl
theorem rdMtpr : Statement .rdMtpr := rfl
theorem wrMsa (data : Word) : Statement (.wrMsa data) := rfl
theorem wrMcs (data : Word) : Statement (.wrMcs data) := rfl
theorem wrMdr (data : Word) : Statement (.wrMdr data) := rfl
theorem wrMtpr (data : Word) : Statement (.wrMtpr data) := rfl
theorem cmdRun : Statement .cmdRun := rfl
theorem cmdStartRun : Statement .cmdStartRun := rfl
theorem cmdStop : Statement .cmdStop := rfl
theorem cmdStopRun : Statement .cmdStopRun := rfl
theorem cmdStartStopRun : Statement .cmdStartStopRun := rfl
theorem cmdRunAck : Statement .cmdRunAck := rfl
theorem cmdStartRunAck : Statement .cmdStartRunAck := rfl
theorem init (sysclk target : Int) : Statement (.init sysclk target) := rfl
theorem writeOne (dev reg val : Nat) : Statement (.writeOne dev reg val) := rfl
theorem readOne (dev reg : Nat) : Statement (.readOne dev reg) := rfl
theorem writeBurst (dev reg n : Nat) (wbuf : List Nat) : Statement (.writeBurst dev reg n wbuf) := rfl
theorem readBurst (dev reg n : Nat) : Statement (.readBurst dev reg n) := rfl

end Sys2Proof.Laws.Encoded
end

