-- ==== Sys2Proof/Tests/Slice0.lean ====
section
/-!
SUPPORT. The model's own tests. Expected results come from spec/95_test_vectors.md (the vector's name stands in the test's
comment), and the words of the decode tests from spec/30_encoding.md and spec/opcode_table.json. Then, for each statement of
Obligations.lean with hypotheses, a state and operands that meet them.
-/

namespace Sys2Proof.Machine.Slice0

/-! ### Helpers -/

/-- An oracle with fixed answers that never stalls. -/
def answers (a t : Answer) (r : RxAnswer) : Oracle :=
  { addr := fun _ _ => a, tx := fun _ _ => t, rx := fun _ _ => r, stall := fun _ => false }

/-- An environment for tests: MAX_BURST 8, draws of all ones. -/
def env (o : Oracle) : Env := { oracle := o, free := fun _ => 0xFFFFFFFF#32, schedule := fun _ => .engine, maxBurst := 8 }

/-- After reset, with a receive buffer of 8 bytes. -/
def fresh : State := { State.reset with rbuf := List.replicate 8 0#8 }

/-- The vectors' S_init: MTPR = 0x07 and INIT done. -/
def ready : State := { fresh with mtpr := some 0x07#8, initDone := true, done := true }

/-- A bus state with MSA and MDR set, MTPR = 0x07. -/
def at_ (st : CState) (msa mdr : Byte) : State := { ready with cstate := st, msa := some msa, mdr := some mdr }

/-- The engine running at a position. -/
def running (op : Op) (l : Label) (i n : Nat) (s : State) : State :=
  { s with op := op, n := n, eact := true, done := false, epc := { label := l, i := i } }

/-- The next state an outcome gives. -/
def after : Host.Outcome State Fault Refusal → State
  | .next t => t
  | .fault _ => State.reset
  | .refused _ => State.reset

/-- The reason last recorded. -/
def reason (o : Host.Outcome State Fault Refusal) : Option Fault := (after o).faults.getLast?.map FaultRecord.reason

/-- The low byte of the last access. -/
def lastByte (s : State) : Option Byte := s.hr.getLast?.map (fun e => e.value.setWidth 8)

/-- Status bits 4:0 as MCS would be read (bits 7:5 are drawn). -/
def status5 (s : State) : Byte := ((statusWord 0#32 s).setWidth 8) &&& 0x1F#8

/-- What a completed command left: its events, the bus state, status bits 4:0. -/
def left (o : Oracle) (i : Instr) (s : State) : List BusEvent × CState × Byte :=
  let t := complete (env o) (after (exec i s))
  (t.hb, t.cstate, status5 t)

/-! ### Well-formedness: each check refuses an ill-formed term -/

theorem test_wellFormed_refuses :
    (Instr.wrMsa 0x100#32).wellFormed 8 = false ∧
    (Instr.wrMcs 0x80000001#32).wellFormed 8 = false ∧ (Instr.wrMcs 0x02#32).wellFormed 8 = false ∧
    (Instr.wrMdr 0xFFFFFF00#32).wellFormed 8 = false ∧
    (Instr.wrMtpr 0x107#32).wellFormed 8 = false ∧ (Instr.wrMtpr 0x87#32).wellFormed 8 = false ∧
    (Instr.wrMtpr 0x00#32).wellFormed 8 = false ∧
    (Instr.init 0 100000).wellFormed 8 = false ∧ (Instr.init 16000000 0).wellFormed 8 = false := by decide

theorem test_wellFormed_refuses_requests :
    (Instr.writeOne 0x80 0 0).wellFormed 8 = false ∧ (Instr.writeOne 0 0x100 0).wellFormed 8 = false ∧
    (Instr.writeOne 0 0 0x100).wellFormed 8 = false ∧
    (Instr.readOne 0x80 0).wellFormed 8 = false ∧ (Instr.readOne 0 0x100).wellFormed 8 = false ∧
    (Instr.writeBurst 0x80 0 0 []).wellFormed 8 = false ∧ (Instr.writeBurst 0 0x100 0 []).wellFormed 8 = false ∧
    (Instr.writeBurst 0 0 9 [0, 0, 0, 0, 0, 0, 0, 0, 0]).wellFormed 8 = false ∧
    (Instr.writeBurst 0 0 3 [1, 2]).wellFormed 8 = false ∧ (Instr.writeBurst 0 0 1 [0x100]).wellFormed 8 = false ∧
    (Instr.readBurst 0x80 0 1).wellFormed 8 = false ∧ (Instr.readBurst 0 0x100 1).wellFormed 8 = false ∧
    (Instr.readBurst 0 0 9).wellFormed 8 = false := by decide

theorem test_wellFormed_admits :
    (Instr.wrMcs 0x0B#32).wellFormed 8 = true ∧ (Instr.wrMtpr 0x7F#32).wellFormed 8 = true ∧
    (Instr.writeOne 0x7F 0xFF 0xFF).wellFormed 8 = true ∧ (Instr.writeBurst 0 0 1 [0xFF]).wellFormed 8 = true ∧
    (Instr.readBurst 0x7F 0xFF 8).wellFormed 8 = true := by decide

/-! ### Decoding: the words of R81, R83 and R86, bit by bit -/

/-- ACC (R81): W in bit 12, the offset in bits 11:0. -/
theorem test_decode_acc :
    decode (.acc 0b0000000000000#13 4 0#32) = .ok .rdMsa ∧
    decode (.acc 0b0000000000100#13 4 0#32) = .ok .rdMcs ∧
    decode (.acc 0b0000000001000#13 4 0#32) = .ok .rdMdr ∧
    decode (.acc 0b0000000001100#13 4 0#32) = .ok .rdMtpr ∧
    decode (.acc 0b1000000000000#13 4 0xD0#32) = .ok (.wrMsa 0xD0#32) ∧
    decode (.acc 0b1000000000100#13 4 0x03#32) = .ok (.wrMcs 0x03#32) ∧
    decode (.acc 0b1000000001000#13 4 0x6B#32) = .ok (.wrMdr 0x6B#32) ∧
    decode (.acc 0b1000000001100#13 4 0x07#32) = .ok (.wrMtpr 0x07#32) := by decide

/-- Vectors A6, A7, A8: another width, an unmapped offset, an unaligned offset. -/
theorem test_decode_acc_rejects :
    decode (.acc 0x1000#13 1 0xD0#32) = .reject .badAccess ∧ decode (.acc 0x0010#13 4 0#32) = .reject .badAccess ∧
    decode (.acc 0x0002#13 4 0#32) = .reject .badAccess := by decide

/-- CMD (R83): RUN bit 0, START bit 1, STOP bit 2, ACK bit 3. -/
theorem test_decode_cmd :
    decode (.cmd 0b00000001#8) = .ok .cmdRun ∧ decode (.cmd 0b00000011#8) = .ok .cmdStartRun ∧
    decode (.cmd 0b00000100#8) = .ok .cmdStop ∧ decode (.cmd 0b00000101#8) = .ok .cmdStopRun ∧
    decode (.cmd 0b00000111#8) = .ok .cmdStartStopRun ∧ decode (.cmd 0b00001001#8) = .ok .cmdRunAck ∧
    decode (.cmd 0b00001011#8) = .ok .cmdStartRunAck := by decide

/-- Vectors B30 and B31. -/
theorem test_decode_cmd_rejects :
    (∀ w ∈ [0x10#8, 0x13#8, 0x80#8], decode (.cmd w) = .reject .reservedCommand) ∧
    (∀ w ∈ [0x00#8, 0x02#8, 0x06#8, 0x08#8, 0x0A#8, 0x0C#8, 0x0D#8, 0x0E#8, 0x0F#8],
      decode (.cmd w) = .reject .illegalCommand) := by decide

/-- REQ (R86): OP in bits 2:0. -/
theorem test_decode_req :
    decode (.req 0b000#3 { sysclk := 16000000, target := 100000 }) = .ok (.init 16000000 100000) ∧
    decode (.req 0b001#3 { dev := 0x68, reg := 0x6B, val := 0x12 }) = .ok (.writeOne 0x68 0x6B 0x12) ∧
    decode (.req 0b010#3 { dev := 0x68, reg := 0x75 }) = .ok (.readOne 0x68 0x75) ∧
    decode (.req 0b011#3 { dev := 0x50, reg := 0x10, n := 2, wbuf := [0xAA, 0xBB] }) =
      .ok (.writeBurst 0x50 0x10 2 [0xAA, 0xBB]) ∧
    decode (.req 0b100#3 { dev := 0x68, reg := 0x3B, n := 6 }) = .ok (.readBurst 0x68 0x3B 6) ∧
    decode (.req 0b101#3 {}) = .reject .reservedOp := by decide

/-- Address-plus-direction: dev 0x68 gives 0xD0 and 0xD1, dev 0x3C gives 0x78. -/
theorem test_address_byte :
    saByte 0x68#7 false = 0xD0#8 ∧ saByte 0x68#7 true = 0xD1#8 ∧ saByte 0x3C#7 false = 0x78#8 := by decide

/-- The table's words reach the decoder, and the window's addresses the registers. -/
theorem test_table_words :
    decodeTableWord 16 0x100C = some (.wrMtpr 0#32) ∧ decodeTableWord 16 0x0004 = some .rdMcs ∧
    decodeTableWord 8 0x0B = some .cmdStartRunAck ∧ decodeTableWord 8 2 = some (.readOne 0 0) ∧
    decodeTableWord 3 4 = some (.readBurst 0 0 0) ∧ decodeTableWord 8 0x10 = none ∧
    memInput 0x40020000 true 0x4002000C 4 0x07#32 = some (.acc 0x100C#13 4 0x07#32) ∧
    memInput 0x40020000 false 0x40021000 4 0#32 = none := by decide

/-- The very next step from reset runs the word that was placed: WR MSA of 0, and a request (vector E1's fault). -/
theorem test_first_step_runs_the_word :
    (after (step (State.reset.withFetchWord 16 0x1000))).msa = some 0#8 ∧
    reason (step (State.reset.withFetchWord 8 2)) = some .notInitialised := by decide

/-! ### Register accesses -/

/-- A1, A14: Unwritten after reset; while busy MSA still reads. -/
theorem test_rdMsa :
    reason (exec .rdMsa fresh) = some .unwritten ∧
    lastByte (after (hostRead (env (answers .ack .ack .arbLost)) .msa { at_ .idle 0xD0 0 with busy := true })) = some 0xD0#8 := by
  decide

/-- A2, A13: Unwritten after reset, BusyRead while busy. -/
theorem test_rdMdr :
    reason (exec .rdMdr fresh) = some .unwritten ∧
    reason (exec .rdMdr { at_ .idle 0 0 with busy := true }) = some .busyRead := by decide

/-- A3, A28: Unwritten after reset; the divisor of 80 MHz at 100 kHz. -/
theorem test_rdMtpr :
    reason (exec .rdMtpr fresh) = some .unwritten ∧
    lastByte (after (hostRead (env (answers .ack .ack .arbLost)) .mtpr { fresh with mtpr := some 0x27#8 })) = some 0x27#8 := by
  decide

/-- A4, A25, A26, A27, and A15 (bit 0 while busy). -/
theorem test_rdMcs :
    status5 fresh = 0x00#8 ∧ status5 { fresh with adrack := true } = 0x06#8 ∧ status5 { fresh with datack := true } = 0x0A#8 ∧
    status5 { fresh with arblst := true } = 0x12#8 ∧ status5 { fresh with busy := true } &&& 1#8 = 1#8 := by decide

/-- A22: the host's read faults while a request runs. -/
theorem test_rdMcs_engine_busy : reason (exec .rdMcs { fresh with eact := true }) = some .engineBusy := by decide

/-- A5, A12. -/
theorem test_wrMsa :
    (after (exec (.wrMsa 0xD0#32) fresh)).msa = some 0xD0#8 ∧
    reason (exec (.wrMsa 0xD1#32) { fresh with busy := true }) = some .busyWrite := by decide

/-- A9, A10, A11. -/
theorem test_wrMdr :
    reason (exec (.wrMdr 0x100#32) fresh) = some .reservedBits ∧
    reason (exec (.wrMdr 0x100#32) { fresh with busy := true }) = some .reservedBits ∧
    reason (exec (.wrMdr 0x12#32) { fresh with busy := true }) = some .busyWrite := by decide

/-- A16, A17, A18, A19. -/
theorem test_wrMtpr :
    (after (exec (.wrMtpr 0x07#32) fresh)).mtpr = some 0x07#8 ∧ reason (exec (.wrMtpr 0x00#32) fresh) = some .badDivisor ∧
    reason (exec (.wrMtpr 0x87#32) fresh) = some .reservedBits ∧ (after (exec (.wrMtpr 0x7F#32) fresh)).mtpr = some 0x7F#8 := by
  decide

/-- A20, A21. -/
theorem test_wrMtpr_held :
    reason (exec (.wrMtpr 0x07#32) { fresh with cstate := .tx }) = some .configWhileActive ∧
    reason (exec (.wrMtpr 0x80#32) { fresh with cstate := .tx, busy := true }) = some .busyWrite := by decide

/-- A23: BadAccess is checked before EngineBusy. -/
theorem test_badAccess_first :
    reason (runInput (.acc 0x0010#13 4 0#32) { fresh with eact := true }) = some .badAccess := by decide

/-- B32, B33, B34: no clock, no address, no data. -/
theorem test_wrMcs_unwritten :
    reason (exec (.wrMcs 0x03#32) { fresh with msa := some 0xD0#8, mdr := some 0#8 }) = some .unwritten ∧
    reason (exec (.wrMcs 0x03#32) { fresh with mtpr := some 0x07#8 }) = some .unwritten ∧
    reason (exec (.wrMcs 0x03#32) { ready with msa := some 0xD0#8 }) = some .unwritten := by decide

/-- B30, B31, B37 as MCS writes. -/
theorem test_wrMcs_faults :
    reason (exec (.wrMcs 0x13#32) (at_ .idle 0xD0 0x6B)) = some .reservedCommand ∧
    reason (exec (.wrMcs 0x0A#32) (at_ .idle 0xD0 0x6B)) = some .illegalCommand ∧
    reason (exec (.wrMcs 0x04#32) { at_ .idle 0xD0 0x6B with busy := true }) = some .busyWrite := by decide

/-! ### Commands -/

/-- B7, B8, B9, B10. -/
theorem test_cmdRun :
    left (answers .ack .ack .arbLost) .cmdRun (at_ .tx 0xD0 0x07) = ([.tx 0x07 .ack], .tx, 0x00#8) ∧
    left (answers .ack .nack .arbLost) .cmdRun (at_ .tx 0xD0 0x07) = ([.tx 0x07 .nack], .hold, 0x0A#8) ∧
    left (answers .ack .arbLost .arbLost) .cmdRun (at_ .tx 0xD0 0x07) = ([.tx 0x07 .arbLost], .idle, 0x12#8) ∧
    left (answers .ack .ack (.byte 0x33)) .cmdRun (at_ .rx 0xD1 0x07) = ([.rx 0x33 .nack], .hold, 0x00#8) := by decide

/-- B11, B12. -/
theorem test_cmdRun_illegal :
    reason (exec .cmdRun (at_ .idle 0xD0 0)) = some .illegalCommand ∧
    reason (exec .cmdRun (at_ .hold 0xD0 0)) = some .illegalCommand := by decide

/-- B1, B2, B3, B4. -/
theorem test_cmdStartRun :
    left (answers .ack .ack .arbLost) .cmdStartRun (at_ .idle 0xD0 0x6B) =
      ([.start, .addr 0xD0 .ack, .tx 0x6B .ack], .tx, 0x00#8) ∧
    left (answers .nack .ack .arbLost) .cmdStartRun (at_ .idle 0xD0 0x6B) = ([.start, .addr 0xD0 .nack], .hold, 0x06#8) ∧
    left (answers .ack .nack .arbLost) .cmdStartRun (at_ .idle 0xD0 0x6B) =
      ([.start, .addr 0xD0 .ack, .tx 0x6B .nack], .hold, 0x0A#8) ∧
    left (answers .arbLost .ack .arbLost) .cmdStartRun (at_ .idle 0xD0 0x6B) =
      ([.start, .addr 0xD0 .arbLost], .idle, 0x12#8) := by decide

/-- B5, B6. -/
theorem test_cmdStartRun_receive :
    left (answers .ack .ack (.byte 0x5A)) .cmdStartRun (at_ .idle 0xD1 0x00) =
      ([.start, .addr 0xD1 .ack, .rx 0x5A .nack], .hold, 0x00#8) ∧
    left (answers .ack .ack .arbLost) .cmdStartRun (at_ .hold 0xD0 0x11) =
      ([.rstart, .addr 0xD0 .ack, .tx 0x11 .ack], .tx, 0x00#8) := by decide

/-- B13, B36: in Idle a STOP completes at once, clears the latches, and needs no clock. -/
theorem test_cmdStop_idle :
    (after (exec .cmdStop { fresh with adrack := true })).adrack = false ∧
    (after (exec .cmdStop { fresh with adrack := true })).busy = false ∧
    (after (exec .cmdStop fresh)).faults = [] ∧ (after (exec .cmdStop fresh)).hb = [] := by decide

/-- B14, B15. -/
theorem test_cmdStop_held :
    left (answers .ack .ack .arbLost) .cmdStop { at_ .hold 0xD0 0x6B with adrack := true } = ([.stop], .idle, 0x00#8) ∧
    left (answers .ack .ack .arbLost) .cmdStop (at_ .tx 0xD0 0x6B) = ([.stop], .idle, 0x00#8) := by decide

/-- B16, B17, B18, B19. -/
theorem test_cmdStopRun :
    left (answers .ack .ack .arbLost) .cmdStopRun (at_ .tx 0xD0 0x00) = ([.tx 0x00 .ack, .stop], .idle, 0x00#8) ∧
    left (answers .ack .nack .arbLost) .cmdStopRun (at_ .tx 0xD0 0x00) = ([.tx 0x00 .nack, .stop], .idle, 0x0A#8) ∧
    left (answers .ack .ack (.byte 0x06)) .cmdStopRun (at_ .rx 0xD1 0x00) = ([.rx 0x06 .nack, .stop], .idle, 0x00#8) ∧
    left (answers .ack .ack .arbLost) .cmdStopRun (at_ .rx 0xD1 0x00) = ([.rxLost], .idle, 0x12#8) := by decide

/-- B20. -/
theorem test_cmdStopRun_illegal : reason (exec .cmdStopRun (at_ .idle 0xD0 0)) = some .illegalCommand := by decide

/-- B21, B22, B23. -/
theorem test_cmdStartStopRun :
    left (answers .ack .ack (.byte 0x68)) .cmdStartStopRun (at_ .tx 0xD1 0x00) =
      ([.rstart, .addr 0xD1 .ack, .rx 0x68 .nack, .stop], .idle, 0x00#8) ∧
    left (answers .nack .ack .arbLost) .cmdStartStopRun (at_ .tx 0xD1 0x00) =
      ([.rstart, .addr 0xD1 .nack, .stop], .idle, 0x06#8) ∧
    left (answers .ack .ack .arbLost) .cmdStartStopRun (at_ .idle 0xA0 0x42) =
      ([.start, .addr 0xA0 .ack, .tx 0x42 .ack, .stop], .idle, 0x00#8) := by decide

/-- B35: a receive needs no MDR. -/
theorem test_cmdStartStopRun_unwritten_mdr :
    left (answers .ack .ack (.byte 0x09)) .cmdStartStopRun { ready with msa := some 0xD1#8 } =
      ([.start, .addr 0xD1 .ack, .rx 0x09 .nack, .stop], .idle, 0x00#8) := by decide

/-- B24. -/
theorem test_cmdRunAck :
    left (answers .ack .ack (.byte 0x03)) .cmdRunAck (at_ .rx 0xD1 0x00) = ([.rx 0x03 .ack], .rx, 0x00#8) := by decide

/-- B25, B26. -/
theorem test_cmdRunAck_illegal :
    reason (exec .cmdRunAck (at_ .tx 0xD1 0)) = some .illegalCommand ∧
    reason (exec .cmdRunAck (at_ .hold 0xD1 0)) = some .illegalCommand := by decide

/-- B27, B28. -/
theorem test_cmdStartRunAck :
    left (answers .ack .ack (.byte 0x01)) .cmdStartRunAck (at_ .tx 0xD1 0x00) =
      ([.rstart, .addr 0xD1 .ack, .rx 0x01 .ack], .rx, 0x00#8) ∧
    left (answers .nack .ack .arbLost) .cmdStartRunAck (at_ .tx 0xD1 0x00) =
      ([.rstart, .addr 0xD1 .nack], .hold, 0x06#8) := by decide

/-- B29. -/
theorem test_cmdStartRunAck_illegal : reason (exec .cmdStartRunAck (at_ .idle 0xD0 0)) = some .illegalCommand := by decide

/-! ### Clock configuration -/

/-- C1 to C5, C7, C9, C10: the divisors; C6, C8, C11, C12: out of range. -/
theorem test_divisors :
    divisor 16000000 100000 = 0x07 ∧ divisor 80000000 100000 = 0x27 ∧ divisor 50000000 100000 = 0x18 ∧
    divisor 25000000 100000 = 0x0B ∧ divisor 4000000 100000 = 0x01 ∧ divisor 257999999 100000 = 0x7F ∧
    divisor 16000000 400000 = 0x01 ∧ divisor 80000000 400000 = 0x09 ∧
    clockOk 4000000 100000 = true ∧ clockOk 257999999 100000 = true ∧ clockOk 3999999 100000 = false ∧
    clockOk 258000000 100000 = false ∧ clockOk 16000000 0 = false ∧ clockOk 0 100000 = false := by decide

/-- E10 and C1 at the engine: the request is accepted after reset, I0 gives the divisor, I1 writes MTPR. -/
theorem test_init :
    (after (exec (.init 16000000 100000) fresh)).epc = { label := .i0, i := 0 } ∧
    (stepI0 (after (exec (.init 16000000 100000) fresh))).tpr = 0x07#8 ∧
    (stepI1 (env (answers .ack .ack .arbLost)) (running .init .i1 0 0 { fresh with tpr := 0x07#8 })).mtpr = some 0x07#8 := by
  decide

/-- C14: at I1 the bus is held. -/
theorem test_init_while_held :
    ((stepI1 (env (answers .ack .ack .arbLost)) (running .init .i1 0 0 { at_ .tx 0xD0 0 with tpr := 0x07#8 })).faults.map
      FaultRecord.reason) = [.configWhileActive] := by decide

/-! ### Requests and the engine's steps -/

/-- E1, E3, E4, E9. -/
theorem test_writeOne_faults :
    reason (exec (.writeOne 0x68 0x6B 0x00) fresh) = some .notInitialised ∧
    reason (exec (.writeOne 0x80 0x00 0x00) fresh) = some .badOperand ∧
    reason (exec (.writeOne 0x68 0x100 0x00) ready) = some .badOperand ∧
    reason (exec (.writeOne 0x68 0x00 0x00) { ready with eact := true }) = some .engineBusy := by decide

/-- E2. -/
theorem test_reserved_op : reason (runInput (.req 5#3 {}) fresh) = some .reservedOp := by decide

/-- The HR of Program 2: A1, A3, W2 write 0xD0, 0x03, 0x05; T3's poll sees 0x0A and goes to ABORT. -/
theorem test_writeOne_steps :
    let E := env (answers .ack .ack .arbLost)
    lastByte (stepA1 (running .writeOne .a1 0 0 { ready with dev := 0x68 })) = some 0xD0#8 ∧
    lastByte (stepA3 (running .writeOne .a3 0 0 (at_ .idle 0xD0 0x6B))) = some 0x03#8 ∧
    lastByte (stepW2 (running .writeOne .w2 0 0 (at_ .tx 0xD0 0x00))) = some 0x05#8 ∧
    (stepA4 E (running .writeOne .a4 0 0 { at_ .hold 0xD0 0x6B with datack := true })).epc.label = .abort ∧
    (stepW3 E (running .writeOne .w3 0 0 { at_ .idle 0xD0 0 with arblst := true })).status = .fail := by decide

/-- T6: R1 writes 0xD1, R2 issues 0x07, R4 returns the byte. -/
theorem test_readOne_steps :
    let E := env (answers .ack .ack .arbLost)
    lastByte (stepR1 (running .readOne .r1 0 0 { at_ .tx 0xD0 0x75 with dev := 0x68 })) = some 0xD1#8 ∧
    lastByte (stepR2 (running .readOne .r2 0 0 (at_ .tx 0xD1 0x75))) = some 0x07#8 ∧
    hostResult (stepR4 E (running .readOne .r4 0 0 (at_ .idle 0xD1 0x68))) = some (.byte .ok 0x68) := by decide

/-- Program 4 at X1: CMD_STOP; and T8's error path at R3. -/
theorem test_readOne_errors :
    let E := env (answers .ack .ack .arbLost)
    lastByte (stepX1 (running .readOne .x1 0 0 { at_ .hold 0x78 0x10 with adrack := true })) = some 0x04#8 ∧
    (stepR3 E (running .readOne .r3 0 0 { at_ .idle 0xD1 0x10 with adrack := true })).status = .fail := by decide

/-- T11: after A4 with three bytes comes B1, with one B4; B1(1) writes the second byte, B2 issues 0x01; B3(0) and B3(1) go on. -/
theorem test_writeBurst_steps :
    let E := env (answers .ack .ack .arbLost)
    let s := { at_ .tx 0xA0 0x10 with wbuf := [0xAA#8, 0xBB#8, 0xCC#8] }
    (stepA4 E (running .writeBurst .a4 0 3 s)).epc = { label := .b1, i := 0 } ∧
    (stepA4 E (running .writeBurst .a4 0 1 s)).epc = { label := .b4, i := 0 } ∧
    (stepB1 E (running .writeBurst .b1 1 3 s)).mdr = some 0xBB#8 ∧
    lastByte (stepB2 (running .writeBurst .b2 1 3 s)) = some 0x01#8 ∧
    (stepB3 E (running .writeBurst .b3 0 3 s)).epc = { label := .b1, i := 1 } ∧
    (stepB3 E (running .writeBurst .b3 1 3 s)).epc = { label := .b4, i := 0 } ∧
    (stepB4 E (running .writeBurst .b4 0 3 s)).mdr = some 0xCC#8 := by decide

/-- E5, E8. -/
theorem test_writeBurst_acceptance :
    reason (hostRequest (env (answers .ack .ack .arbLost)) .writeBurst { dev := 0x68, n := 3, wbuf := [1, 2] } ready) =
      some .badOperand ∧
    hostResult (after (hostRequest (env (answers .ack .ack .arbLost)) .writeBurst { dev := 0x68 } ready)) =
      some (.status .ok) := by decide

/-- T17: Q2 issues 0x0B, M1 0x09, L1 0x05; the byte after 0x0B goes to rbuf[0]; after M3(4) comes L1; P3: with one byte, S1. -/
theorem test_readBurst_steps :
    let E := env (answers .ack .ack .arbLost)
    (stepQ1 (running .readBurst .q1 0 6 (at_ .tx 0xD0 0x3B))).epc.label = .q2 ∧
    (stepQ1 (running .readBurst .q1 0 1 (at_ .tx 0xD0 0x3B))).epc.label = .s1 ∧
    lastByte (stepQ2 (running .readBurst .q2 0 6 (at_ .tx 0xD1 0x3B))) = some 0x0B#8 ∧
    (stepQ4 E (running .readBurst .q4 0 6 (at_ .rx 0xD1 0x01))).rbuf = [0x01#8, 0, 0, 0, 0, 0, 0, 0] ∧
    lastByte (stepM1 (running .readBurst .m1 1 6 (at_ .rx 0xD1 0x01))) = some 0x09#8 ∧
    (stepM3 E (running .readBurst .m3 3 6 (at_ .rx 0xD1 0x04))).epc = { label := .m1, i := 4 } ∧
    (stepM3 E (running .readBurst .m3 4 6 (at_ .rx 0xD1 0x05))).epc.label = .l1 ∧
    lastByte (stepL1 (running .readBurst .l1 0 6 (at_ .rx 0xD1 0x05))) = some 0x05#8 ∧
    lastByte (stepS1 (running .readBurst .s1 0 1 (at_ .tx 0xD1 0x3B))) = some 0x07#8 := by decide

/-- E6 and E7, and T20: a byte lost at the end gives FAIL. -/
theorem test_readBurst_results :
    let E := env (answers .ack .ack .arbLost)
    reason (hostRequest E .readBurst { dev := 0x68, n := 9 } ready) = some .badOperand ∧
    hostResult (after (hostRequest E .readBurst { dev := 0x68 } ready)) = some (.bytes .ok []) ∧
    (stepL3 E (running .readBurst .l3 0 6 { at_ .idle 0xD1 0x06 with snap := 0x12#8 })).status = .fail := by decide

/-- The reference device (R142) after T1's first phases: addressed for writing, the pointer at the register selected. -/
theorem test_refDev :
    let d : RefDev := { d0 := 0x68, regs := fun a => if a = 0x75#8 then 0x68#8 else 0#8, inject := [] }
    d.addr [.start] 0xD0#8 = .ack ∧ d.addr [.start] 0x78#8 = .nack ∧
    d.rx [.start, .addr 0xD0 .ack, .tx 0x75 .ack, .rstart, .addr 0xD1 .ack] .nack = .byte 0x68#8 := by decide

/-! ### Witnesses: for each statement with hypotheses, what meets them, clause by clause -/

theorem test_meets_DecodeAndEncodeAgree :
    decode (.acc 0x1008#13 4 0x6B#32) = .ok (.wrMdr 0x6B#32) ∧ (0x1008#13).getLsbD 12 = true ∧
    decode (.cmd 0x09#8) = .ok .cmdRunAck ∧ decode (.req 4#3 { dev := 1 }) = .ok (.readBurst 1 0 0) := by decide

theorem test_meets_RequestOpsDecode : 5 ≤ (5#3 : BitVec 3).toNat ∧ 5 ≤ (7#3 : BitVec 3).toNat := by decide

theorem test_meets_StepRunsDecodedInstruction :
    let s := State.reset.withFetchWord 16 0x0004
    s.turn = .host ∧ stopped .host s = false ∧ s.hostQ = [.acc 0x0004#13 4 0#32] ∧ decode (.acc 0x0004#13 4 0#32) = .ok .rdMcs := by
  decide

theorem test_meets_StepRunsTheTurn :
    ({ fresh with turn := .engine } : State).turn = .engine ∧ ({ fresh with turn := .controller } : State).turn = .controller := by
  decide

theorem test_meets_RejectedInputsFault :
    decode (.acc 0x0010#13 4 0#32) = .reject .badAccess ∧ decode (.acc 0x1000#13 2 0#32) = .reject .badAccess ∧
    5 ≤ (5#3 : BitVec 3).toNat := by decide

/-- WrMsaWrites and WrMdrWrites: each clause, at the ends of the data's range. -/
theorem test_meets_WrMsaWrites_WrMdrWrites :
    (fresh.eact = false ∧ reservedClear 0xFF#32 ∧ fresh.busy = false) ∧
    ({ fresh with eact := true } : State).eact = true ∧
    (fresh.eact = false ∧ ¬ reservedClear 0x100#32) ∧
    (({ fresh with busy := true } : State).eact = false ∧ reservedClear 0x00#32 ∧ ({ fresh with busy := true } : State).busy = true) := by
  unfold reservedClear; decide

/-- WrMtprWrites: the write at 1 and 127, and each ground of a fault. -/
theorem test_meets_WrMtprWrites :
    (fresh.eact = false ∧ fresh.busy = false ∧ fresh.cstate = .idle) ∧
    ((0x01#32).extractLsb' 8 24 = 0#24 ∧ (0x01#32).getLsbD 7 = false ∧ (0x01#32).setWidth 7 ≠ 0#7) ∧
    ((0x7F#32).extractLsb' 8 24 = 0#24 ∧ (0x7F#32).getLsbD 7 = false ∧ (0x7F#32).setWidth 7 ≠ 0#7) ∧
    (0x80#32).getLsbD 7 = true ∧ (0x00#32).setWidth 7 = 0#7 ∧ (0x101#32).extractLsb' 8 24 ≠ 0#24 ∧
    (at_ .tx 0 0).cstate ≠ .idle := by decide

/-- The four reads: each clause. -/
theorem test_meets_reads :
    (ready.eact = false ∧ ready.mtpr = some 0x07#8) ∧
    ((at_ .idle 0xD0 0x6B).eact = false ∧ (at_ .idle 0xD0 0x6B).busy = false ∧ (at_ .idle 0xD0 0x6B).msa = some 0xD0#8 ∧
      (at_ .idle 0xD0 0x6B).mdr = some 0x6B#8) ∧
    ({ ready with eact := true } : State).eact = true ∧
    (fresh.eact = false ∧ fresh.busy = false ∧ fresh.msa = none ∧ fresh.mdr = none ∧ fresh.mtpr = none) ∧
    (({ ready with busy := true } : State).eact = false ∧ ({ ready with busy := true } : State).busy = true) := by decide

/-- WrMcsIssuesTheCommand: a command word, the example's state, and each fault's clause. -/
theorem test_meets_WrMcsIssuesTheCommand :
    decode (.cmd 0x05#8) = .ok .cmdStopRun ∧
    (quiet (at_ .idle 0xD0 0x6B) ∧ (at_ .idle 0xD0 0x6B).cstate = .idle ∧ (at_ .idle 0xD0 0x6B).msa = some 0xD0#8 ∧
      (0xD0#8).getLsbD 0 = false ∧ (at_ .idle 0xD0 0x6B).mdr = some 0x6B#8 ∧ (at_ .idle 0xD0 0x6B).mtpr = some 0x07#8) ∧
    (fresh.eact = false ∧ ¬ reservedClear 0x100#32) ∧
    (({ fresh with busy := true } : State).eact = false ∧ reservedClear 0x03#32 ∧
      ({ fresh with busy := true } : State).busy = true) := by
  unfold quiet reservedClear; decide

/-- CommandFaultOrder: a word and a state for each clause (vectors B30, B33, B29, B32, B34). -/
theorem test_meets_CommandFaultOrder :
    quiet fresh ∧ (0x10#8).extractLsb' 4 4 ≠ 0#4 ∧
    ((0x03#8).extractLsb' 4 4 = 0#4 ∧ (0x03#8).getLsbD 1 = true ∧ fresh.msa = none) ∧
    (quiet (at_ .idle 0xD0 0) ∧ (0x0B#8).extractLsb' 4 4 = 0#4 ∧ (at_ .idle 0xD0 0).msa ≠ none ∧
      admitted (at_ .idle 0xD0 0).cstate (rsBit (at_ .idle 0xD0 0).msa) ((0x0B#8).setWidth 4) = false) ∧
    (quiet { fresh with msa := some 0xD0#8 } ∧ admitted .idle (rsBit (some 0xD0#8)) ((0x03#8).setWidth 4) = true ∧
      ¬ ((0x03#8) = 0x04#8 ∧ fresh.cstate = .idle) ∧ ({ fresh with msa := some 0xD0#8 } : State).mtpr = none) ∧
    (quiet { ready with msa := some 0xD0#8 } ∧ (0x03#8).getLsbD 0 = true ∧ (0x03#8).getLsbD 1 = true ∧
      rsBit (some 0xD0#8) = false ∧ ({ ready with msa := some 0xD0#8 } : State).mdr = none) := by
  unfold quiet; decide

/-- Oracles for the clauses of the completion statements: one for each answer, none stalls. -/
theorem test_meets_completions (h : List BusEvent) (b : Byte) (m : MasterAck) :
    (answers .ack .ack (.byte 0x5A)).stall h = false ∧
    (answers .ack .ack (.byte 0x5A)).addr h b = .ack ∧ (answers .ack .ack (.byte 0x5A)).tx h b = .ack ∧
    (answers .ack .ack (.byte 0x5A)).rx h m = .byte 0x5A#8 ∧
    (answers .nack .nack .arbLost).addr h b = .nack ∧ (answers .nack .nack .arbLost).tx h b = .nack ∧
    (answers .nack .nack .arbLost).rx h m = .arbLost ∧
    (answers .arbLost .arbLost .arbLost).addr h b = .arbLost ∧ (answers .arbLost .arbLost .arbLost).tx h b = .arbLost ∧
    (answers .ack .nack .arbLost).addr h b = .ack ∧ (answers .ack .nack .arbLost).tx h b = .nack ∧
    (answers .ack .arbLost .arbLost).tx h b = .arbLost ∧ (answers .ack .arbLost .arbLost).rx h m = .arbLost :=
  ⟨rfl, rfl, rfl, rfl, rfl, rfl, rfl, rfl, rfl, rfl, rfl, rfl, rfl⟩

/-- RunAndStopRunTransmit and RunCommandsReceive: the bus held in Tx and in Rx. -/
theorem test_meets_run_commands :
    (quiet (at_ .tx 0xD0 0x07) ∧ (at_ .tx 0xD0 0x07).cstate = .tx ∧ (at_ .tx 0xD0 0x07).mdr = some 0x07#8 ∧
      (at_ .tx 0xD0 0x07).mtpr = some 0x07#8) ∧
    (quiet (at_ .rx 0xD1 0x07) ∧ (at_ .rx 0xD1 0x07).cstate = .rx ∧ (at_ .rx 0xD1 0x07).mtpr = some 0x07#8) := by
  unfold quiet; decide

/-- StartCommandsTransmit and StartCommandsReceive: RS = 0 and RS = 1, the latter with MDR not written. -/
theorem test_meets_start_commands :
    (quiet (at_ .hold 0xD0 0x11) ∧ (at_ .hold 0xD0 0x11).msa = some 0xD0#8 ∧ (0xD0#8).getLsbD 0 = false ∧
      (at_ .hold 0xD0 0x11).mdr = some 0x11#8 ∧ (at_ .hold 0xD0 0x11).mtpr = some 0x07#8) ∧
    (quiet { ready with msa := some 0xD1#8 } ∧ ({ ready with msa := some 0xD1#8 } : State).msa = some 0xD1#8 ∧
      (0xD1#8).getLsbD 0 = true ∧ ({ ready with msa := some 0xD1#8 } : State).mtpr = some 0x07#8) := by
  unfold quiet; decide

theorem test_meets_CmdStopReleasesTheBus :
    (quiet fresh ∧ fresh.cstate = .idle) ∧
    (∀ st ∈ [CState.tx, .rx, .hold], quiet (at_ st 0xD0 0) ∧ (at_ st 0xD0 0).cstate ≠ .idle ∧
      (at_ st 0xD0 0).mtpr = some 0x07#8) := by
  unfold quiet; decide

theorem test_meets_CommandsIllegalOutsideTheirStates :
    quiet (at_ .hold 0xD0 0) ∧ ((at_ .hold 0xD0 0).cstate = .idle ∨ (at_ .hold 0xD0 0).cstate = .hold) ∧
    (at_ .hold 0xD0 0).cstate ≠ .rx ∧ (at_ .hold 0xD0 0).msa = some 0xD0#8 ∧ (0xD0#8).getLsbD 0 = false := by
  unfold quiet; decide

/-- StallChangesNothing: an oracle that stalls forever (B38), with a command in flight. -/
theorem test_meets_StallChangesNothing :
    let E := env { answers .ack .ack .arbLost with stall := fun _ => true }
    let s := after (exec .cmdStartRun (at_ .idle 0xD0 0x6B))
    E.oracle.stall s.hb = true ∧ s.busy = true := by decide

/-- HostCannotDisturbARequest, FaultedAgentTakesNoStep: a running engine; an engine and a host that have faulted. -/
theorem test_meets_agents :
    ({ ready with eact := true } : State).eact = true ∧ stopped .engine (raise .configWhileActive .engine (.cmd 0#8) ready) = true ∧
    stopped .host (after (exec .rdMsa fresh)) = true := by decide

/-- HistoriesOnlyGrow, HostStepFrame and FaultedAgentTakesNoStep's last clause: a step and a host's move that answer next. -/
theorem test_meets_next :
    (∃ t, step fresh = .next t) ∧ (∃ t, exec .rdMsa fresh = .next t) ∧
    (∃ t, step (after (exec .rdMsa fresh)) = .next t ∧ stopped .host (after (exec .rdMsa fresh)) = true) :=
  ⟨⟨_, rfl⟩, ⟨_, rfl⟩, ⟨_, rfl, by decide⟩⟩

/-- ClockRange: a running engine at I0, with operands at both ends of the legal range and on each ground of the fault (C5 to C8,
C11, C12). -/
theorem test_meets_ClockRange :
    let s (sysclk target : Int) := running .init .i0 0 0 { fresh with sysclk := sysclk, target := target }
    (∀ a b : Int, (s a b).eact = true ∧ stopped .engine (s a b) = false ∧ (s a b).epc.label = .i0 ∧ (s a b).sysclk = a ∧
      (s a b).target = b) ∧
    ((1 : Int) ≤ 4000000 ∧ (1 : Int) ≤ 100000 ∧ (40 : Int) * 100000 ≤ 4000000 ∧ (4000000 : Int) < 2580 * 100000) ∧
    ((40 : Int) * 100000 ≤ 257999999 ∧ (257999999 : Int) < 2580 * 100000) ∧
    (0 : Int) < 1 ∧ (3999999 : Int) < 40 * 100000 ∧ (2580 : Int) * 100000 ≤ 258000000 :=
  ⟨fun _ _ => ⟨rfl, rfl, rfl, rfl, rfl⟩, by decide, by decide, by decide, by decide, by decide⟩

/-- DivisorFormula, BusClockNeverBelowTarget: both ends of the legal range, and just outside. -/
theorem test_meets_clock :
    (1 : Int) ≤ 100000 ∧
    clockOk 4000000 100000 = true ∧ clockOk 257999999 100000 = true ∧ clockOk 25000000 100000 = true := by decide

/-- InitProgramsTheClock, InitIsIdempotent: acceptance, the two steps, the hold and the fault at I1. -/
theorem test_meets_init :
    let s := running .init .i0 0 0 { fresh with sysclk := 16000000, target := 100000 }
    let u := running .init .i1 0 0 { at_ .tx 0xD0 0 with tpr := 0x07#8 }
    (fresh.eact = false ∧ stopped .engine fresh = false ∧ fresh.busy = false ∧ fresh.cstate = .idle) ∧
    (s.eact = true ∧ stopped .engine s = false ∧ s.busy = false ∧ s.cstate = .idle ∧ s.op = .init ∧ s.epc.label = .i0 ∧
      clockOk s.sysclk s.target = true) ∧
    (u.eact = true ∧ stopped .engine u = false ∧ u.epc.label = .i1 ∧ u.busy = false ∧ u.cstate ≠ .idle) ∧
    ({ u with busy := true } : State).busy = true := by decide

/-- RequestFaultOrder: each ground alone, at the first value out of range. -/
theorem test_meets_RequestFaultOrder :
    ({ ready with eact := true } : State).eact = true ∧ (0x7F < 0x80 ∧ 0xFF < 0x100) ∧ fresh.initDone = false ∧
    Config.maxBurst < Config.maxBurst + 1 ∧ ([1, 2] : List Nat).length ≠ 3 ∧ (∃ b ∈ [0x100], 0xFF < b) ∧
    (ready.eact = false ∧ (0x7F < 0x80)) ∧ (fresh.eact = false ∧ ¬ (0x7F < 0x7F)) :=
  ⟨rfl, by decide, rfl, Nat.lt_succ_self _, by decide, by decide, by decide, by decide⟩

/-- The accepted requests: an idle engine after INIT; a burst of one byte. -/
theorem test_meets_acceptance :
    ready.eact = false ∧ ready.initDone = true ∧ 1 ≤ [0x42#8].length ∧ [0x42#8].length ≤ Config.maxBurst :=
  ⟨rfl, rfl, by decide, Nat.succ_le_succ (Nat.zero_le _)⟩

theorem test_meets_ErrorTest : ({ fresh with arblst := true } : State).busy = false := rfl

theorem test_meets_EngineHoldsWhileBusy :
    ∀ l ∈ [Label.t0, .i1, .a4, .x2, .w3, .r3, .b3, .b6, .q3, .m2, .l2, .s2],
      (running .writeOne l 0 0 { ready with busy := true }).busy = true ∧
        (running .writeOne l 0 0 { ready with busy := true }).epc.label = l := by decide

/-- The invariant, at S_init and at a transaction's last position. -/
theorem test_inv_ready : Inv 8 ready :=
  ⟨rfl, fun _ h => (nomatch h), ⟨rfl, rfl, rfl⟩, fun v h => by cases h; decide, fun h => absurd rfl h, fun _ => rfl,
    fun _ => by decide, rfl, Nat.zero_le _, fun h => (nomatch h), fun h => (nomatch h), fun h => (nomatch h), fun h => (nomatch h)⟩

/-- T1 at W3, the payload sent: not busy, Idle, about to finish. -/
def finishing : State := { running .writeOne .w3 0 0 ready with estate := .stopPending }

theorem test_inv_finishing : Inv 8 finishing :=
  ⟨rfl, fun _ h => (nomatch h), ⟨rfl, rfl, rfl⟩, fun v h => by cases h; decide, fun h => absurd rfl h, fun h => (nomatch h),
    fun _ => by decide, rfl, Nat.zero_le _, fun h => (nomatch h), fun _ => ⟨fun _ => rfl, fun h => (nomatch h)⟩,
    fun _ h => (nomatch h), fun _ => ⟨rfl, rfl, fun _ h => (nomatch h), fun _ => rfl⟩⟩

/-- The running clauses of the invariant, with a command in flight: T1 at A4, the addressing command issued. -/
theorem test_inv_in_flight : Inv 8 { running .writeOne .a4 0 0 (at_ .idle 0xD0 0x6B) with
    estate := .addrWritePending, busy := true
    pend := some { start := true, stop := false, run := true, ack := false, dir := some .tx, origin := .idle
                   addr := some 0xD0#8, data := some 0x6B#8 } } := by
  refine ⟨rfl, fun c h => ?_, ⟨rfl, rfl, rfl⟩, fun v h => by cases h; decide, fun h => absurd rfl h, fun h => (nomatch h),
    fun _ => by decide, rfl, Nat.zero_le _, fun h => (nomatch h), fun _ => ⟨fun _ => rfl, fun h => (nomatch h)⟩,
    fun _ h => (nomatch h), fun _ => ⟨rfl, fun c h => ?_, fun h => (nomatch h)⟩⟩
  · cases h
    exact ⟨rfl, ⟨rfl, rfl⟩, rfl, by decide, fun _ => ⟨rfl, by decide, rfl⟩, fun h => (nomatch h), fun h => (nomatch h),
      fun _ _ => by decide, fun h => (nomatch h)⟩
  · cases h
    exact ⟨rfl, rfl, rfl, rfl, rfl⟩

/-- EveryStepKeepsInv: a state whose buffer is MAX_BURST long, whatever that is. -/
theorem test_meets_EveryStepKeepsInv : Inv Config.maxBurst { ready with rbuf := List.replicate Config.maxBurst 0#8 } :=
  ⟨rfl, fun _ h => (nomatch h), ⟨rfl, rfl, rfl⟩, fun v h => by cases h; decide, fun h => absurd rfl h, fun _ => rfl,
    fun _ => by decide, by simp, Nat.zero_le _, fun h => (nomatch h), fun h => (nomatch h), fun h => (nomatch h), fun h => (nomatch h)⟩

/-- TransactionsNeverFault and FinishedTransactionLeavesTheBusIdle: a running transaction whose next step finishes it. -/
theorem test_meets_transactions :
    Inv (env (answers .ack .ack .arbLost)).maxBurst finishing ∧ finishing.op ≠ .init ∧ finishing.eact = true ∧
    (engineStep (env (answers .ack .ack .arbLost)) finishing).eact = false :=
  ⟨test_inv_finishing, by decide, rfl, by decide⟩

/-- What the statements about whole transactions ask of the start: S_init, on any oracle. -/
theorem test_meets_readyToRun (o : Oracle) : readyToRun (env o) ready :=
  ⟨test_inv_ready, rfl, rfl, rfl, rfl, rfl⟩

/-- SingleByteCleanTraces: S_init and an oracle that acknowledges, never stalls and sends one byte. -/
theorem test_meets_SingleByteCleanTraces :
    let E := env (answers .ack .ack (.byte 0x68))
    readyToRun E ready ∧ (∀ h, E.oracle.stall h = false) ∧ (∀ h b, E.oracle.addr h b = .ack) ∧
    (∀ h b, E.oracle.tx h b = .ack) ∧ (∀ h m, E.oracle.rx h m = .byte 0x68#8) :=
  ⟨test_meets_readyToRun _, fun _ => rfl, fun _ _ => rfl, fun _ _ => rfl, fun _ _ => rfl⟩

/-- BurstCleanTraces: the same bus, and a burst of one byte, of two, and of MAX_BURST. -/
theorem test_meets_BurstCleanTraces :
    let E := env (answers .ack .ack (.byte 0x68))
    readyToRun E ready ∧ (∀ h m, ∃ v, E.oracle.rx h m = .byte v) ∧
    (∀ bytes ∈ [[0x11#8], [0x11, 0x22], [1, 2, 3, 4, 5, 6, 7, 8]], 1 ≤ bytes.length ∧ bytes.length ≤ E.maxBurst) :=
  ⟨test_meets_readyToRun _, fun _ _ => ⟨_, rfl⟩, by decide⟩

/-- AddressNackIsContained, AcceptedTransactionEnds: a burst of one byte accepted from S_init, no device on the bus. -/
theorem test_meets_AddressNackIsContained :
    let E := env (answers .nack .ack .arbLost)
    let o : Operands := { dev := 0x68, reg := 0x3B, n := 1 }
    readyToRun E ready ∧ Op.isTxn .readBurst = true ∧ requestFault E .readBurst o ready = none ∧
    (Op.isBurst .readBurst = true → 1 ≤ o.n) ∧ (∀ h, E.oracle.stall h = false) ∧ (∀ h b, E.oracle.addr h b = .nack) :=
  ⟨test_meets_readyToRun _, rfl, rfl, fun _ => Nat.le_refl _, fun _ => rfl, fun _ _ => rfl⟩

/-- EveryTraceHasOneStartAndOneStop, OkExactlyWhenTheTraceIsClean: runs from S_init that end, one for each clause: on a bus that
acknowledges (T1: OK, a STOP), with no device (Program 4: FAIL, a STOP), and one that takes the bus away (T4: FAIL, no STOP). -/
theorem test_meets_finished_runs :
    let o : Operands := { dev := 0x68, reg := 0x6B }
    let t (E : Env) := rounds E 10 (acceptRequest E .writeOne o ready)
    (∀ x : Oracle, readyToRun (env x) ready ∧ Op.isTxn .writeOne = true ∧ requestFault (env x) .writeOne o ready = none ∧
      (Op.isBurst .writeOne = true → 1 ≤ o.n)) ∧
    ((t (env (answers .ack .ack .arbLost))).eact = false ∧ (t (env (answers .ack .ack .arbLost))).status = .ok ∧
      (t (env (answers .ack .ack .arbLost))).hb.any losesBus = false) ∧
    ((t (env (answers .nack .ack .arbLost))).eact = false ∧ (t (env (answers .nack .ack .arbLost))).status = .fail ∧
      (t (env (answers .nack .ack .arbLost))).hb.any losesBus = false) ∧
    ((t (env (answers .arbLost .ack .arbLost))).eact = false ∧ (t (env (answers .arbLost .ack .arbLost))).hb.any losesBus = true) :=
  ⟨fun _ => ⟨test_meets_readyToRun _, rfl, rfl, fun h => (nomatch h)⟩, by decide, by decide, by decide⟩

/-- WriteThenReadReturnsTheByte and BurstWriteThenReadKeepsOrder: S_init on the reference device; bursts of one byte and of
MAX_BURST. -/
theorem test_meets_reference_device :
    let d : RefDev := { d0 := 0x68, regs := fun _ => 0#8, inject := [] }
    (env d.oracle).oracle = d.oracle ∧ d.inject = [] ∧ readyToRun (env d.oracle) ready ∧
    (∀ bytes ∈ [[0x11#8], [1, 2, 3, 4, 5, 6, 7, 8]],
      1 ≤ bytes.length ∧ bytes.length ≤ (env d.oracle).maxBurst ∧ bytes.length ≤ 256) :=
  ⟨rfl, rfl, test_meets_readyToRun _, by decide⟩

/-- InitIsIdempotent: all of its hypotheses at once. -/
theorem test_meets_InitIsIdempotent :
    fresh.eact = false ∧ stopped .engine fresh = false ∧ fresh.busy = false ∧ fresh.cstate = .idle ∧
    clockOk 16000000 100000 = true := by decide

end Sys2Proof.Machine.Slice0
end

section
/-!
PROOFS. Whose step a step is (00_scope.md R7), and what the engine's step leaves alone (43_engine.md R179).
-/

namespace Sys2Proof.Machine

/-! ### The step of the agent whose turn it is -/

/-- On the host's turn (R7, R70). -/
theorem step_host (s : State) (h : s.turn = .host) : step s = hostStep (advance Config.env s) := by
  rw [step, h]

/-- On the engine's turn (R7, R179). -/
theorem step_engine (s : State) (h : s.turn = .engine) : step s = .next (engineStep Config.env (advance Config.env s)) := by
  rw [step, h]

/-- On the controller's turn (R7, R122). -/
theorem step_controller (s : State) (h : s.turn = .controller) :
    step s = .next (complete Config.env (advance Config.env s)) := by
  rw [step, h]

/-- The schedule's advance leaves the fault record, so it stops no agent (R214). -/
@[simp] theorem stopped_advance (E : Env) (a : Agent) (s : State) : stopped a (advance E s) = stopped a s := rfl

/-- An unfaulted host runs its next input. -/
theorem hostStep_cons (s : State) (inp : Input) (rest : List Input) (hf : stopped .host s = false)
    (hq : s.hostQ = inp :: rest) : hostStep s = runInput inp { s with hostQ := rest } := by
  simp [hostStep, hf, hq]

/-- An input that decodes runs its instruction. -/
theorem runInput_ok (inp : Input) (i : Instr) (s : State) (h : decode inp = .ok i) : runInput inp s = exec i s := by
  rw [runInput, h]

/-- Settles O7: the host's turn, its queue and the decoder, one lemma each. -/
theorem stepRunsDecodedInstruction : Obligations.StepRunsDecodedInstruction := by
  intro s inp rest i hturn hfault hqueue hdecode
  rw [step_host s hturn, hostStep_cons _ inp rest (by simpa using hfault) (by simpa using hqueue), runInput_ok inp i _ hdecode]
  rfl

/-- Settles O8: each agent's turn is its own step, on the advanced state. -/
theorem stepRunsTheTurn : Obligations.StepRunsTheTurn :=
  fun s => ⟨step_engine s, step_controller s⟩

/-! ### What the engine's step keeps -/

/-- The state with all that a transaction's step may change put to fixed values. Two states with the same kept part agree on
everything else: MTPR, the bus state, HB, the request latches, `init_done`, the fault record, the host's inputs, the schedule. -/
def engineKept (s : State) : State :=
  { s with
    msa := none, mdr := none, busy := false, pend := none, adrack := false, datack := false, arblst := false,
    hr := [], he := [], estate := .idle, epc := default, tpr := 0#8, snap := 0#8, rbuf := [], status := .ok,
    rdata := 0#8, done := false, eact := false, draws := 0 }

/-- The engine's fault as R214 takes it: one more record, and but for the count of draws nothing else. -/
def EngineFaulted (s t : State) : Prop :=
  ∃ (r : Fault) (what : Input),
    t = { s with faults := s.faults ++ [{ reason := r, agent := .engine, what := what }], draws := t.draws }

/-- A step of the engine that writes no clock: the kept part stays, or the fault is recorded. -/
def EngineMoves (s t : State) : Prop := engineKept t = engineKept s ∨ EngineFaulted s t

theorem EngineMoves.refl (s : State) : EngineMoves s s := .inl rfl

theorem engineFaulted_raise (r : Fault) (what : Input) (s : State) : EngineFaulted s (raise r .engine what s) :=
  ⟨r, what, rfl⟩

/-! What a step does after its access keeps the kept part. -/

theorem engineKept_goto (l : Label) (i : Nat) (s : State) : engineKept (goto l i s) = engineKept s := rfl

theorem engineKept_polled (E : Env) (s : State) : engineKept (polled E s) = engineKept s := rfl

theorem engineKept_finishRequest (E : Env) (st : Status) (s : State) :
    engineKept (finishRequest E st s) = engineKept s := by
  rw [finishRequest_state]
  rfl

theorem engineKept_finishByErr (E : Env) (s : State) : engineKept (finishByErr E s) = engineKept s :=
  engineKept_finishRequest E _ s

theorem engineKept_checkErr (k : State → State) (hk : ∀ t, engineKept (k t) = engineKept t) (s : State) :
    engineKept (checkErr k s) = engineKept s := by
  unfold checkErr
  split
  · rfl
  · exact hk s

/-- A jump to one of two labels (R192, R193). -/
theorem engineKept_ite_goto (c : Prop) [Decidable c] (l l' : Label) (i i' : Nat) (s : State) :
    engineKept (if c then goto l i s else goto l' i' s) = engineKept s := by
  split <;> rfl

theorem engineKept_afterAddressing (s : State) : engineKept (afterAddressing s) = engineKept s := by
  unfold afterAddressing
  cases s.op with
  | writeBurst => exact engineKept_ite_goto _ _ _ _ _ _
  | _ => rfl

/-- A register write changes MTPR only when it is the write of MTPR (R101 to R104). -/
theorem engineKept_writeEffect (r : Reg) (b : Byte) (s : State) (hr : r ≠ .mtpr) :
    engineKept (writeEffect r b s) = engineKept s := by
  cases r with
  | msa => rfl
  | mdr => rfl
  | mtpr => exact absurd rfl hr
  | mcs =>
    simp only [writeEffect, acceptEffect]
    split <;> rfl

/-! The blocks the engine's steps are built from. -/

theorem engineMoves_write (r : Reg) (b : Byte) (k : State → State) (s : State) (hr : r ≠ .mtpr)
    (hk : ∀ t, engineKept (k t) = engineKept t) : EngineMoves s (engineWrite r b k s) := by
  rcases engineWrite_cases r b k s with ⟨f, -, h⟩ | ⟨-, h⟩ <;> rw [h]
  · exact .inr (engineFaulted_raise f _ s)
  · exact .inl ((hk _).trans (engineKept_writeEffect r b s hr))

theorem engineMoves_command (w : Byte) (e : EState) (l : Label) (i : Nat) (s : State) :
    EngineMoves s (engineCommand w e l i s) :=
  engineMoves_write .mcs w _ s (by decide) fun _ => rfl

theorem engineMoves_read (E : Env) (r : Reg) (k : Byte → State → State) (s : State)
    (hk : ∀ v t, engineKept (k v t) = engineKept t) : EngineMoves s (engineRead E r k s) := by
  rcases engineRead_cases E r k s with ⟨f, -, h⟩ | ⟨-, h⟩ <;> rw [h]
  · exact .inr (engineFaulted_raise f _ s)
  · exact .inl (hk _ _)

theorem engineMoves_readToBuf (E : Env) (k : Nat) (next : State → State) (s : State)
    (hk : ∀ t, engineKept (next t) = engineKept t) : EngineMoves s (readToBuf E k next s) :=
  engineMoves_read E .mdr _ s fun _ _ => hk _

theorem engineMoves_poll (E : Env) (k : State → State) (s : State) (hk : ∀ t, engineKept (k t) = engineKept t) :
    EngineMoves s (poll E k s) := by
  rcases poll_cases E k s with ⟨-, h⟩ | ⟨-, h⟩ <;> rw [h]
  · exact .refl s
  · exact .inl ((hk _).trans (engineKept_polled E s))

/-- The byte of a burst: where the buffer has none, a draw comes before the write (log entry 20), and before its fault. -/
theorem engineMoves_writeBufByte (E : Env) (k : Nat) (l : Label) (i : Nat) (s : State) :
    EngineMoves s (writeBufByte E k l i s) := by
  have hdraw : ∃ d, (byteOrDraw E s.wbuf[k]? s).2 = { s with draws := d } := by
    cases s.wbuf[k]? with
    | some v => exact ⟨s.draws, rfl⟩
    | none => exact ⟨s.draws + 1, rfl⟩
  obtain ⟨d, hd⟩ := hdraw
  unfold writeBufByte
  rw [hd]
  rcases engineMoves_write .mdr (byteOrDraw E s.wbuf[k]? s).1 (goto l i) { s with draws := d } (by decide)
    (engineKept_goto l i) with h | ⟨r, what, h⟩
  · exact .inl h
  · exact .inr ⟨r, what, h⟩

/-! ### The engine's step at each position -/

theorem engineMoves_i0 (s : State) : EngineMoves s (stepI0 s) := by
  unfold stepI0
  split
  · exact .inl rfl
  · exact .inr (engineFaulted_raise _ _ s)

theorem engineMoves_t0 (s : State) : EngineMoves s (stepT0 s) := by
  unfold stepT0
  split
  · exact .refl s
  · exact .inl rfl

theorem engineKept_failOrR4 (E : Env) (s : State) :
    engineKept (if err s.snap then finishRequest E .fail s else goto .r4 0 s) = engineKept s := by
  split
  · exact engineKept_finishRequest E .fail s
  · rfl

/-- Everywhere but at I1 (R160) the engine's step keeps the kept part or faults (R174 to R177, R190 to R193). -/
theorem engineMoves_engineAt (E : Env) (s : State) (hl : s.epc.label ≠ .i1) : EngineMoves s (engineAt E s) := by
  unfold engineAt
  cases h : s.epc.label with
  | i0 => exact engineMoves_i0 s
  | i1 => exact absurd h hl
  | t0 => exact engineMoves_t0 s
  | a1 => exact engineMoves_write .msa _ _ s (by decide) (engineKept_goto _ _)
  | a2 => exact engineMoves_write .mdr _ _ s (by decide) (engineKept_goto _ _)
  | a3 => exact engineMoves_command _ _ _ _ s
  | a4 => exact engineMoves_poll E _ s (engineKept_checkErr _ fun _ => engineKept_afterAddressing _)
  | abort => exact .inl rfl
  | x1 => exact engineMoves_command _ _ _ _ s
  | x2 => exact engineMoves_poll E _ s (engineKept_finishRequest E .fail)
  | w1 => exact engineMoves_write .mdr _ _ s (by decide) (engineKept_goto _ _)
  | w2 => exact engineMoves_command _ _ _ _ s
  | w3 => exact engineMoves_poll E _ s (engineKept_finishByErr E)
  | r1 => exact engineMoves_write .msa _ _ s (by decide) (engineKept_goto _ _)
  | r2 => exact engineMoves_command _ _ _ _ s
  | r3 => exact engineMoves_poll E _ s (engineKept_failOrR4 E)
  | r4 => exact engineMoves_read E .mdr _ s fun _ _ => engineKept_finishRequest E .ok _
  | b1 => exact engineMoves_writeBufByte E _ _ _ s
  | b2 => exact engineMoves_command _ _ _ _ s
  | b3 => exact engineMoves_poll E _ s (engineKept_checkErr _ fun _ => engineKept_ite_goto _ _ _ _ _ _)
  | b4 => exact engineMoves_writeBufByte E _ _ _ s
  | b5 => exact engineMoves_command _ _ _ _ s
  | b6 => exact engineMoves_poll E _ s (engineKept_finishByErr E)
  | q1 => exact engineMoves_write .msa _ _ s (by decide) fun _ => engineKept_ite_goto _ _ _ _ _ _
  | q2 => exact engineMoves_command _ _ _ _ s
  | q3 => exact engineMoves_poll E _ s (engineKept_checkErr _ (engineKept_goto _ _))
  | q4 => exact engineMoves_readToBuf E _ _ s fun _ => engineKept_ite_goto _ _ _ _ _ _
  | m1 => exact engineMoves_command _ _ _ _ s
  | m2 => exact engineMoves_poll E _ s (engineKept_checkErr _ fun _ => rfl)
  | m3 => exact engineMoves_readToBuf E _ _ s fun _ => engineKept_ite_goto _ _ _ _ _ _
  | l1 => exact engineMoves_command _ _ _ _ s
  | l2 => exact engineMoves_poll E _ s (engineKept_goto _ _)
  | l3 => exact engineMoves_readToBuf E _ _ s (engineKept_finishByErr E)
  | s1 => exact engineMoves_command _ _ _ _ s
  | s2 => exact engineMoves_poll E _ s (engineKept_goto _ _)
  | s3 => exact engineMoves_readToBuf E _ _ s (engineKept_finishByErr E)

/-- At most MTPR and `init_done` of the kept part change. -/
def EngineKeptButClock (s t : State) : Prop :=
  engineKept t = { engineKept s with mtpr := t.mtpr, initDone := t.initDone }

theorem engineKeptButClock_of_eq {s t : State} (h : engineKept t = engineKept s) : EngineKeptButClock s t := by
  have hm : t.mtpr = s.mtpr := (congrArg State.mtpr h :)
  have hi : t.initDone = s.initDone := (congrArg State.initDone h :)
  rw [EngineKeptButClock, hm, hi]
  exact h

/-- I1 changes of the kept part only MTPR and `init_done` (R160). -/
theorem stepI1_cases (E : Env) (s : State) : EngineKeptButClock s (stepI1 E s) ∨ EngineFaulted s (stepI1 E s) := by
  unfold stepI1
  split
  · exact .inl rfl
  · rcases engineWrite_cases .mtpr s.tpr (fun t => finishRequest E .ok { t with initDone := true }) s with
      ⟨f, -, h⟩ | ⟨-, h⟩ <;> rw [h]
    · exact .inr (engineFaulted_raise f _ s)
    · refine .inl ?_
      rw [finishRequest_state]
      rfl

theorem engineAt_i1 (E : Env) (s : State) (h : s.epc.label = .i1) : engineAt E s = stepI1 E s := by
  rw [engineAt, h]

/-- What an engine's step can do (R179): I1 on the clock (R160), or a step that keeps the kept part, or a fault (R214). -/
theorem engineStep_cases (E : Env) (s : State) :
    (s.epc.label = .i1 ∧ EngineKeptButClock s (engineStep E s)) ∨ engineKept (engineStep E s) = engineKept s ∨
    EngineFaulted s (engineStep E s) := by
  unfold engineStep
  split
  · by_cases hl : s.epc.label = .i1
    · rw [engineAt_i1 E s hl]
      exact (stepI1_cases E s).imp (⟨hl, ·⟩) .inr
    · exact .inr (engineMoves_engineAt E s hl)
  · exact .inr (.inl rfl)

/-- Of the kept part an engine's step changes at most MTPR, `init_done` and the fault record. -/
theorem engineStep_kept (E : Env) (s : State) :
    engineKept (engineStep E s) = { engineKept s with
      mtpr := (engineStep E s).mtpr, initDone := (engineStep E s).initDone, faults := (engineStep E s).faults } := by
  have hcases : EngineKeptButClock s (engineStep E s) ∨ EngineFaulted s (engineStep E s) :=
    (engineStep_cases E s).elim (fun h => .inl h.2) (Or.imp_left engineKeptButClock_of_eq)
  rcases hcases with h | ⟨r, what, h⟩
  · have hf : (engineStep E s).faults = s.faults := (congrArg State.faults h :)
    rw [hf]
    exact h
  · rw [h]
    rfl

/-- MTPR and `init_done` change only at I1 (R160). -/
theorem engineStep_clock (E : Env) (s : State)
    (hne : (engineStep E s).mtpr ≠ s.mtpr ∨ (engineStep E s).initDone ≠ s.initDone) : s.epc.label = .i1 := by
  have hsame (hm : (engineStep E s).mtpr = s.mtpr) (hi : (engineStep E s).initDone = s.initDone) : s.epc.label = .i1 :=
    absurd hne (by simp [hm, hi])
  rcases engineStep_cases E s with ⟨hl, -⟩ | h | ⟨r, what, h⟩
  · exact hl
  · exact hsame (congrArg State.mtpr h :) (congrArg State.initDone h :)
  · exact hsame (congrArg State.mtpr h :) (congrArg State.initDone h :)

/-- An engine's step leaves the fault record, or is a fault (R214). -/
theorem engineStep_faults (E : Env) (s : State) :
    (engineStep E s).faults = s.faults ∨ EngineFaulted s (engineStep E s) := by
  rcases engineStep_cases E s with ⟨-, h⟩ | h | h
  · exact .inl (congrArg State.faults h :)
  · exact .inl (congrArg State.faults h :)
  · exact .inr h

/-- Settles O34: each field is read off the kept part; the clock and the fault record have their own lemmas. -/
theorem engineStepFrame : Obligations.EngineStepFrame := by
  intro E s t
  have field {α : Type} (f : State → α) := congrArg f (engineStep_kept E s)
  exact ⟨field State.cstate, field State.hb, field State.hostQ, field State.turn, field State.tick, field State.op,
    field State.dev, field State.reg, field State.val, field State.n, field State.wbuf, field State.sysclk,
    field State.target, engineStep_clock E s, engineStep_faults E s⟩

end Sys2Proof.Machine
end

section
/-!
PROOFS. What the host's step can do, once (40_register_access.md R109, 43_engine.md R170, 60_exceptions.md R214).
-/

namespace Sys2Proof.Machine

/-- What one input of the host can do to the state it finds: record a fault, read or write a register (R109), or have a request
accepted (R170). -/
inductive HostMoves (s : State) : State → Prop
  | faulted (r : Fault) (what : Input) : HostMoves s (raise r .host what s)
  | read (r : Reg) (v : Word) (engineIdle : s.eact = false) :
      HostMoves s (logAccess .host .rd r v (draw Config.env s).2)
  | wrote (r : Reg) (d : Word) (engineIdle : s.eact = false) (admits : writeFault r (d.setWidth 8) s = none) :
      HostMoves s (logAccess .host .wr r d (writeEffect r (d.setWidth 8) s))
  | accepted (op : Op) (o : Operands) (admits : requestFault Config.env op o s = none) :
      HostMoves s (acceptRequest Config.env op o s)

/-- The outcome is a next state, reached by a move of the host. -/
def HostAnswers (s : State) (r : Host.Outcome State Fault Refusal) : Prop := ∃ t, r = .next t ∧ HostMoves s t

theorem hostAnswers_read (r : Reg) (s : State) : HostAnswers s (hostRead Config.env r s) := by
  rcases hostRead_cases Config.env r s with ⟨f, h⟩ | ⟨hidle, -, h⟩
  · exact ⟨_, h, .faulted f _⟩
  · exact ⟨_, h, .read r _ hidle⟩

theorem hostAnswers_write (r : Reg) (d : Word) (s : State) : HostAnswers s (hostWrite r d s) := by
  rcases hostWrite_cases r d s with ⟨f, h⟩ | ⟨hidle, -, hw, h⟩
  · exact ⟨_, h, .faulted f _⟩
  · exact ⟨_, h, .wrote r d hidle hw⟩

theorem hostAnswers_request (op : Op) (o : Operands) (s : State) : HostAnswers s (hostRequest Config.env op o s) := by
  rcases hostRequest_cases Config.env op o s with ⟨f, -, h⟩ | ⟨hr, h⟩
  · exact ⟨_, h, .faulted f _⟩
  · exact ⟨_, h, .accepted op o hr⟩

/-- Every instruction is a read, a write or a request of the host. -/
theorem hostAnswers_exec (i : Instr) (s : State) : HostAnswers s (exec i s) := by
  cases i with
  | rdMsa | rdMcs | rdMdr | rdMtpr => exact hostAnswers_read _ s
  | wrMsa | wrMcs | wrMdr | wrMtpr => exact hostAnswers_write _ _ s
  | cmdRun | cmdStartRun | cmdStop | cmdStopRun | cmdStartStopRun | cmdRunAck | cmdStartRunAck =>
    exact hostAnswers_write .mcs _ s
  | init | writeOne | readOne | writeBurst | readBurst => exact hostAnswers_request _ _ s

/-- An input that is no instruction faults, or is the command word written to MCS (R103, R120). -/
theorem hostAnswers_rejectedInput (inp : Input) (s : State) : HostAnswers s (rejectedInput inp s) := by
  cases inp with
  | acc => exact ⟨_, rfl, .faulted _ _⟩
  | cmd => exact hostAnswers_write .mcs _ s
  | req => exact ⟨_, rfl, .faulted _ _⟩

theorem hostAnswers_runInput (inp : Input) (s : State) : HostAnswers s (runInput inp s) := by
  unfold runInput
  split
  · exact hostAnswers_exec _ s
  · exact hostAnswers_rejectedInput inp s

/-- The host's step answers a next state: its own, or that of a move made with its input taken off the queue (R109, R214). -/
theorem hostStep_cases (s : State) :
    ∃ t, hostStep s = .next t ∧ (t = s ∨ ∃ rest, HostMoves { s with hostQ := rest } t) := by
  unfold hostStep
  split
  · exact ⟨s, rfl, .inl rfl⟩
  · split
    · exact ⟨s, rfl, .inl rfl⟩
    next inp rest _ =>
      obtain ⟨t, h, hmove⟩ := hostAnswers_runInput inp { s with hostQ := rest }
      exact ⟨t, h, .inr ⟨rest, hmove⟩⟩

end Sys2Proof.Machine
end

section
/-!
PROOFS. The histories and the fault record only grow (10_state.md R28, 60_exceptions.md R214).
-/

namespace Sys2Proof.Machine

/-- HB, HR, HE and the fault record of `s` are prefixes of those of `t`. -/
def HistoriesExtend (s t : State) : Prop :=
  s.hb <+: t.hb ∧ s.hr <+: t.hr ∧ s.he <+: t.he ∧ s.faults <+: t.faults

theorem HistoriesExtend.refl (s : State) : HistoriesExtend s s :=
  ⟨List.prefix_rfl, List.prefix_rfl, List.prefix_rfl, List.prefix_rfl⟩

theorem HistoriesExtend.trans {s t u : State} (h : HistoriesExtend s t) (k : HistoriesExtend t u) : HistoriesExtend s u := by
  obtain ⟨hb, hr, he, hfaults⟩ := h
  obtain ⟨kb, kr, ke, kfaults⟩ := k
  exact ⟨hb.trans kb, hr.trans kr, he.trans ke, hfaults.trans kfaults⟩

/-! ### The shared operations -/

theorem historiesExtend_raise (r : Fault) (a : Agent) (what : Input) (s : State) : HistoriesExtend s (raise r a what s) :=
  ⟨List.prefix_rfl, List.prefix_rfl, List.prefix_rfl, List.prefix_append _ _⟩

theorem historiesExtend_emit (e : BusEvent) (s : State) : HistoriesExtend s (emit e s) :=
  ⟨List.prefix_append _ _, List.prefix_rfl, List.prefix_rfl, List.prefix_rfl⟩

theorem historiesExtend_logAccess (a : Agent) (k : Kind) (r : Reg) (v : Word) (s : State) :
    HistoriesExtend s (logAccess a k r v s) :=
  ⟨List.prefix_rfl, List.prefix_append _ _, List.prefix_rfl, List.prefix_rfl⟩

theorem historiesExtend_finishRequest (E : Env) (st : Status) (s : State) : HistoriesExtend s (finishRequest E st s) := by
  rw [finishRequest_state]
  exact ⟨List.prefix_rfl, List.prefix_rfl, List.prefix_append _ _, List.prefix_rfl⟩

theorem historiesExtend_writeEffect (r : Reg) (b : Byte) (s : State) : HistoriesExtend s (writeEffect r b s) := by
  obtain ⟨hfaults, -, -, -, -, -, -, -, -, -, -, -, hhb, hhr, hhe⟩ := writeEffect_frame r b s
  simp [HistoriesExtend, hfaults, hhb, hhr, hhe]

theorem historiesExtend_latchRequest (op : Op) (o : Operands) (s : State) : HistoriesExtend s (latchRequest op o s) := by
  cases op <;> exact .refl s

/-- Accepting a request leaves the histories, or finishes it (R170). -/
theorem historiesExtend_acceptRequest (E : Env) (op : Op) (o : Operands) (s : State) :
    HistoriesExtend s (acceptRequest E op o s) := by
  refine (historiesExtend_latchRequest op o s).trans ?_
  unfold acceptRequest
  dsimp only
  split
  · exact historiesExtend_finishRequest E .ok { latchRequest op o s with eact := true, done := false, estate := .idle }
  · exact .refl _

theorem HostMoves.historiesExtend {s t : State} (h : HostMoves s t) : HistoriesExtend s t := by
  cases h with
  | faulted r what => exact historiesExtend_raise r _ what s
  | read r v => exact historiesExtend_logAccess _ _ r v _
  | wrote r d => exact (historiesExtend_writeEffect r _ s).trans (historiesExtend_logAccess _ _ _ _ _)
  | accepted op o => exact historiesExtend_acceptRequest _ op o s

/-! ### The controller: its phases emit to HB, and leave the rest (R122) -/

theorem hb_byteOrDraw (E : Env) (b : Option Byte) (s : State) : (byteOrDraw E b s).2.hb = s.hb := by
  cases b <;> rfl

theorem hb_endCommand (stop : Bool) (st : CState) (s : State) : (endCommand stop st s).hb = s.hb ++ endEvents stop := by
  cases stop with
  | false => exact (List.append_nil _).symm
  | true => rfl

theorem hb_endOnNack (c : Pend) (s : State) : (endOnNack c s).hb = s.hb ++ endEvents c.stop := hb_endCommand _ _ s

theorem hb_lost (E : Env) (c : Pend) (s : State) : (lost E c s).hb = s.hb := by
  unfold lost
  split <;> rfl

theorem hb_addressNacked (E : Env) (c : Pend) (s : State) : (addressNacked E c s).hb = s.hb ++ endEvents c.stop := by
  unfold addressNacked
  split <;> exact hb_endOnNack c _

theorem hb_prefix_rxPhase (E : Env) (ack : Bool) (s : State) : s.hb <+: (rxPhase E ack s).2.hb := by
  unfold rxPhase
  split <;> exact List.prefix_append _ _

theorem hb_prefix_txPart (E : Env) (c : Pend) (s : State) : s.hb <+: (txPart E c s).hb := by
  have hsent : s.hb <+: (txPhase E (byteOrDraw E c.data s).1 (byteOrDraw E c.data s).2).2.hb := by
    rw [← hb_byteOrDraw E c.data s]
    exact List.prefix_append _ _
  refine hsent.trans ?_
  unfold txPart
  dsimp only
  split
  · rw [hb_lost]
  · rw [hb_endOnNack]
    exact List.prefix_append _ _
  · rw [hb_endCommand]
    exact List.prefix_append _ _

theorem hb_prefix_rxPart (E : Env) (c : Pend) (s : State) : s.hb <+: (rxPart E c s).hb := by
  refine (hb_prefix_rxPhase E c.ack s).trans ?_
  unfold rxPart
  dsimp only
  split
  · rw [hb_endCommand]
    exact List.prefix_append _ _
  · rw [hb_lost]

theorem hb_prefix_dataPart (E : Env) (c : Pend) (s : State) : s.hb <+: (dataPart E c s).hb := by
  unfold dataPart
  split
  · exact hb_prefix_txPart E c s
  · exact hb_prefix_rxPart E c s

theorem hb_prefix_startPart (E : Env) (c : Pend) (s : State) : s.hb <+: (startPart E c s).hb := by
  have hsent : s.hb <+: (addrPhase E (byteOrDraw E c.addr (startPhase c.origin s)).1
      (byteOrDraw E c.addr (startPhase c.origin s)).2).2.hb := by
    refine (List.prefix_append s.hb _).trans (?_ : (startPhase c.origin s).hb <+: _)
    rw [← hb_byteOrDraw E c.addr (startPhase c.origin s)]
    exact List.prefix_append _ _
  refine hsent.trans ?_
  unfold startPart
  dsimp only
  split
  · rw [hb_lost]
  · rw [hb_addressNacked]
    exact List.prefix_append _ _
  · exact hb_prefix_dataPart _ _ _

theorem hb_prefix_runCommand (E : Env) (c : Pend) (s : State) : s.hb <+: (runCommand E c s).hb := by
  unfold runCommand
  split
  · exact List.prefix_append _ _
  · split
    · exact hb_prefix_startPart E c s
    · exact hb_prefix_dataPart E c s

theorem historiesExtend_complete (E : Env) (s : State) : HistoriesExtend s (complete E s) := by
  rcases complete_cases E s with h | ⟨-, -, c, -, h⟩ <;> rw [h]
  · exact .refl s
  · have hframe := frame_runCommand E c s
    exact ⟨hb_prefix_runCommand E c s, by rw [hframe.hr], by rw [hframe.he], by rw [hframe.faults]⟩

/-! ### The engine: an access, and what the same step does after it (R172 to R177) -/

theorem historiesExtend_finishByErr (E : Env) (s : State) : HistoriesExtend s (finishByErr E s) :=
  historiesExtend_finishRequest E _ s

theorem historiesExtend_checkErr (k : State → State) (hk : ∀ t, HistoriesExtend t (k t)) (s : State) :
    HistoriesExtend s (checkErr k s) := by
  unfold checkErr
  split
  · exact .refl s
  · exact hk s

theorem historiesExtend_afterAddressing (s : State) : HistoriesExtend s (afterAddressing s) := by
  unfold afterAddressing
  cases s.op with
  | writeBurst => dsimp only; split <;> exact .refl s
  | _ => exact .refl s

theorem historiesExtend_write (r : Reg) (b : Byte) (k : State → State) (s : State) (hk : ∀ t, HistoriesExtend t (k t)) :
    HistoriesExtend s (engineWrite r b k s) := by
  rcases engineWrite_cases r b k s with ⟨f, -, h⟩ | ⟨-, h⟩ <;> rw [h]
  · exact historiesExtend_raise f _ _ s
  · exact (historiesExtend_writeEffect r b s).trans ((historiesExtend_logAccess _ _ _ _ _).trans (hk _))

theorem historiesExtend_command (w : Byte) (e : EState) (l : Label) (i : Nat) (s : State) :
    HistoriesExtend s (engineCommand w e l i s) :=
  historiesExtend_write .mcs w _ s fun t => .refl t

theorem historiesExtend_read (E : Env) (r : Reg) (k : Byte → State → State) (s : State)
    (hk : ∀ v t, HistoriesExtend t (k v t)) : HistoriesExtend s (engineRead E r k s) := by
  rcases engineRead_cases E r k s with ⟨f, -, h⟩ | ⟨-, h⟩ <;> rw [h]
  · exact historiesExtend_raise f _ _ s
  · exact (historiesExtend_logAccess _ _ r _ (draw E s).2).trans (hk _ _)

theorem historiesExtend_poll (E : Env) (k : State → State) (s : State) (hk : ∀ t, HistoriesExtend t (k t)) :
    HistoriesExtend s (poll E k s) := by
  unfold poll
  split
  · exact .refl s
  · exact historiesExtend_read E .mcs _ s fun v t => hk { t with snap := v }

theorem historiesExtend_writeBufByte (E : Env) (k : Nat) (l : Label) (i : Nat) (s : State) :
    HistoriesExtend s (writeBufByte E k l i s) := by
  unfold writeBufByte
  cases s.wbuf[k]? with
  | some v => exact historiesExtend_write .mdr v _ s fun t => .refl t
  | none => exact historiesExtend_write .mdr _ _ { s with draws := s.draws + 1 } fun t => .refl t

theorem historiesExtend_readToBuf (E : Env) (k : Nat) (next : State → State) (s : State)
    (hk : ∀ t, HistoriesExtend t (next t)) : HistoriesExtend s (readToBuf E k next s) :=
  historiesExtend_read E .mdr _ s fun v t => hk { t with rbuf := t.rbuf.set k v }

/-- A jump to one of two labels (R192, R193). -/
theorem historiesExtend_ite_goto (c : Prop) [Decidable c] (l l' : Label) (i i' : Nat) (s : State) :
    HistoriesExtend s (if c then goto l i s else goto l' i' s) := by
  split <;> exact .refl s

theorem historiesExtend_i1 (E : Env) (s : State) : HistoriesExtend s (stepI1 E s) := by
  unfold stepI1
  split
  · exact .refl s
  · exact historiesExtend_write .mtpr _ _ s fun t => historiesExtend_finishRequest E .ok { t with initDone := true }

theorem historiesExtend_engineAt (E : Env) (s : State) : HistoriesExtend s (engineAt E s) := by
  unfold engineAt
  cases s.epc.label with
  | i0 =>
    dsimp only [stepI0]
    split
    · exact .refl s
    · exact historiesExtend_raise _ _ _ s
  | i1 => exact historiesExtend_i1 E s
  | t0 =>
    dsimp only [stepT0]
    split <;> exact .refl s
  | abort => exact .refl s
  | a1 | a2 | w1 | r1 => exact historiesExtend_write _ _ _ s fun t => .refl t
  | q1 => exact historiesExtend_write _ _ _ s fun t => historiesExtend_ite_goto _ _ _ _ _ t
  | a3 | x1 | w2 | r2 | b2 | b5 | q2 | m1 | l1 | s1 => exact historiesExtend_command _ _ _ _ s
  | b1 | b4 => exact historiesExtend_writeBufByte E _ _ _ s
  | a4 => exact historiesExtend_poll E _ s (historiesExtend_checkErr _ fun t => historiesExtend_afterAddressing
      { t with estate := .addrWriteDone })
  | b3 => exact historiesExtend_poll E _ s (historiesExtend_checkErr _ fun t => historiesExtend_ite_goto _ _ _ _ _ t)
  | q3 | m2 => exact historiesExtend_poll E _ s (historiesExtend_checkErr _ fun t => .refl t)
  | l2 | s2 => exact historiesExtend_poll E _ s fun t => .refl t
  | x2 => exact historiesExtend_poll E _ s (historiesExtend_finishRequest E .fail)
  | w3 | b6 => exact historiesExtend_poll E _ s (historiesExtend_finishByErr E)
  | r3 =>
    refine historiesExtend_poll E _ s fun t => ?_
    split
    · exact historiesExtend_finishRequest E .fail t
    · exact .refl t
  | r4 => exact historiesExtend_read E .mdr _ s fun v t => historiesExtend_finishRequest E .ok { t with rdata := v }
  | q4 | m3 => exact historiesExtend_readToBuf E _ _ s fun t => historiesExtend_ite_goto _ _ _ _ _ t
  | l3 | s3 => exact historiesExtend_readToBuf E _ _ s (historiesExtend_finishByErr E)

theorem historiesExtend_engineStep (E : Env) (s : State) : HistoriesExtend s (engineStep E s) := by
  unfold engineStep
  split
  · exact historiesExtend_engineAt E s
  · exact .refl s

/-! ### The machine's step -/

theorem historiesExtend_hostStep {s t : State} (h : hostStep s = .next t) : HistoriesExtend s t := by
  obtain ⟨u, hu, hcases⟩ := hostStep_cases s
  obtain rfl : u = t := by simpa [hu] using h
  rcases hcases with rfl | ⟨rest, hmove⟩
  · exact .refl _
  · exact hmove.historiesExtend

/-- Settles O32: the step of the agent whose turn it is extends the histories; the schedule's advance leaves them. -/
theorem historiesOnlyGrow : Obligations.HistoriesOnlyGrow := by
  intro s t h
  have hext : HistoriesExtend (advance Config.env s) t := by
    cases hturn : s.turn with
    | host =>
      rw [step_host s hturn] at h
      exact historiesExtend_hostStep h
    | engine =>
      rw [step_engine s hturn] at h
      cases h
      exact historiesExtend_engineStep _ _
    | controller =>
      rw [step_controller s hturn] at h
      cases h
      exact historiesExtend_complete _ _
  exact hext

end Sys2Proof.Machine
end

section
/-!
PROOFS. What the invariant reads, and that the host's step keeps it (40_register_access.md R109, 43_engine.md R170).
-/

namespace Sys2Proof.Machine

variable {m : Nat} {s t : State}

/-! ### What the invariant does not read -/

/-- Of the state an admitted command speaks of the bus state, the registers and the error latches only. -/
theorem PendOk.congr {c : Pend} (k : PendOk c s) (hc : t.cstate = s.cstate) (hmsa : t.msa = s.msa) (hmdr : t.mdr = s.mdr)
    (hmtpr : t.mtpr = s.mtpr) (herr : errorFlag t = errorFlag s) : PendOk c t :=
  ⟨by rw [hc]; exact k.origin, by rw [hmsa, hmdr]; exact k.latched, by rw [herr]; exact k.noError,
    by rw [hmtpr]; exact k.clock, k.started, by rw [hc]; exact k.going, by rw [hc]; exact k.stopOnly, k.sends, k.acks⟩

/-- All that the invariant reads outside the engine. -/
def baseFields (s : State) :=
  (s.busy, s.pend, s.adrack, s.datack, s.arblst, s.mtpr, s.cstate, s.msa, s.initDone, s.rbuf.length, s.n, s.op, s.wbuf, s.mdr)

theorem Base.congr (h : Base m s) (e : baseFields t = baseFields s) : Base m t := by
  simp only [baseFields, Prod.mk.injEq] at e
  obtain ⟨e1, e2, e3, e4, e5, e6, e7, e8, e9, e10, e11, e12, e13, e14⟩ := e
  exact h.transfer e1 e2 e3 e4 e5 e6 e7 e8 e9 e10 e11 e12 e13 e14

/-- The fault record, the host's inputs and the schedule are not in the invariant. -/
theorem Inv.unread (h : Inv m s) (f : List FaultRecord) (q : List Input) (a : Agent) (k : Nat) :
    Inv m { s with faults := f, hostQ := q, turn := a, tick := k } := by
  have b : Base m { s with faults := f, hostQ := q, turn := a, tick := k } := h.base.congr rfl
  exact ⟨b.busyPend, b.pendOk, b.oneLatch, b.legalClock, b.held, h.idleEngine, b.initClock, b.rbufSize, b.count, b.wbufSize,
    h.running, h.txn, h.engine⟩

theorem Inv.raise (h : Inv m s) (r : Fault) (a : Agent) (what : Input) : Inv m (raise r a what s) := h.unread _ _ _ _

theorem Inv.advance (h : Inv m s) (E : Env) : Inv m (advance E s) := h.unread _ _ _ _

/-- With the engine running, the rest of the invariant is its request's and its position's. -/
theorem Base.inv_active (h : Base m s) (ha : s.eact = true)
    (hrun : (Op.isTxn s.op = true → s.initDone = true) ∧ (Op.isBurst s.op = true → 1 ≤ s.n))
    (hinit : s.op = .init → s.epc.label = .i0 ∨ s.epc.label = .i1) (hE : EngineAtOk s) : Inv m s :=
  ⟨h.busyPend, h.pendOk, h.oneLatch, h.legalClock, h.held, by simp [ha], h.initClock, h.rbufSize, h.count, h.wbufSize,
    fun _ => hrun, fun _ => hinit, fun _ => hE⟩

/-! ### The host -/

theorem Inv.hostRead (h : Inv m s) (E : Env) (r : Reg) (v : Word) (hidle : s.eact = false) :
    Inv m (logAccess .host .rd r v (draw E s).2) :=
  have b : Base m (logAccess .host .rd r v (draw E s).2) := h.base.congr rfl
  b.inv hidle (h.idleEngine hidle)

theorem Inv.hostWrite (h : Inv m s) (r : Reg) (d : Word) (hidle : s.eact = false)
    (hw : writeFault r (d.setWidth 8) s = none) :
    Inv m (logAccess .host .wr r d (writeEffect r (d.setWidth 8) s)) := by
  obtain ⟨-, hact, -, -, -, hestate, -⟩ := writeEffect_frame r (d.setWidth 8) s
  exact ((h.base.writeEffect r _ hw).logAccess _ _ _ _).inv (hact.trans hidle) (hestate.trans (h.idleEngine hidle))

/-- An admitted burst moves at most MAX_BURST bytes (R170). -/
theorem count_le_of_operandsOk {op : Op} {o : Operands} (h : operandsBad m op o = false) (hburst : Op.isBurst op = true) :
    o.n ≤ m := by
  simp only [operandsBad, Bool.or_eq_false_iff] at h
  obtain ⟨⟨-, hn⟩, -⟩ := h
  simpa [hburst] using hn

/-- An admitted WRITE_BURST brings its n bytes (R170). -/
theorem length_wbuf_of_operandsOk {op : Op} {o : Operands} (h : operandsBad m op o = false) (hop : op = .writeBurst) :
    o.wbuf.length = o.n := by
  simp only [operandsBad, Bool.or_eq_false_iff] at h
  obtain ⟨-, hw⟩ := h
  simp only [hop, beq_self_eq_true, Bool.true_and, Bool.or_eq_false_iff] at hw
  simpa using hw.1

/-- The request latches are in this part of the invariant only by their sizes (R31). -/
theorem Base.relatch (h : Base m s) (op : Op) (n : Nat) (wbuf : List Byte) (hn : n ≤ m)
    (hw : op = .writeBurst → wbuf.length = n) : Base m { s with op := op, n := n, wbuf := wbuf } :=
  ⟨h.busyPend, fun c hc => (h.pendOk c hc).congr rfl rfl rfl rfl rfl, h.oneLatch, h.legalClock, h.held, h.initClock,
    h.rbufSize, hn, hw⟩

theorem Base.latchRequest (h : Base m s) (op : Op) (o : Operands) (hok : operandsBad m op o = false) :
    Base m (latchRequest op o s) := by
  cases op with
  | init => exact (h.relatch .init s.n s.wbuf h.count nofun).congr rfl
  | writeOne => exact (h.relatch .writeOne s.n s.wbuf h.count nofun).congr rfl
  | readOne => exact (h.relatch .readOne s.n s.wbuf h.count nofun).congr rfl
  | writeBurst =>
    refine (h.relatch .writeBurst o.n (o.wbuf.map (BitVec.ofNat 8)) (count_le_of_operandsOk hok rfl) fun _ => ?_).congr rfl
    rw [List.length_map]
    exact length_wbuf_of_operandsOk hok rfl
  | readBurst => exact (h.relatch .readBurst o.n s.wbuf (count_le_of_operandsOk hok rfl) nofun).congr rfl

@[simp] theorem latchRequest_op (op : Op) (o : Operands) (s : State) : (latchRequest op o s).op = op := by
  cases op <;> rfl

@[simp] theorem latchRequest_initDone (op : Op) (o : Operands) (s : State) : (latchRequest op o s).initDone = s.initDone := by
  cases op <;> rfl

@[simp] theorem latchRequest_n (op : Op) (o : Operands) (s : State) (h : Op.isBurst op = true) :
    (latchRequest op o s).n = o.n := by
  cases op with
  | init | writeOne | readOne => exact absurd h (by decide)
  | writeBurst | readBurst => rfl

/-- An accepted request finishes at once, or stands at I0 or T0 (R170). -/
theorem Inv.acceptRequest (E : Env) (op : Op) (o : Operands) (h : Inv E.maxBurst s) (hr : requestFault E op o s = none) :
    Inv E.maxBurst (acceptRequest E op o s) := by
  obtain ⟨-, hok, hinit⟩ := requestFault_none E op o s hr
  have b : Base E.maxBurst { Machine.latchRequest op o s with eact := true, done := false, estate := .idle } :=
    (h.base.latchRequest op o hok).congr rfl
  by_cases hzero : Op.isBurst op = true ∧ o.n = 0
  · have ht : Machine.acceptRequest E op o s = finishRequest E .ok
        { Machine.latchRequest op o s with eact := true, done := false, estate := .idle } := if_pos hzero
    rw [ht]
    exact (b.finishRequest E .ok).inv rfl rfl
  · rw [acceptRequest_running E op o s hzero]
    refine (b.goto _ 0).inv_active rfl ⟨fun htxn => ?_, fun hburst => ?_⟩ (fun hop => ?_) ?_
    · simpa using hinit (by simpa using htxn)
    · have hb : Op.isBurst op = true := by simpa using hburst
      have hn : o.n ≠ 0 := fun e => hzero ⟨hb, e⟩
      simpa [hb] using Nat.one_le_iff_ne_zero.mpr hn
    · exact .inl (if_pos (by simpa using hop))
    · cases op with
      | init => exact ⟨rfl, rfl⟩
      | _ => exact rfl

theorem HostMoves.inv (hm : HostMoves s t) (h : Inv Config.env.maxBurst s) : Inv Config.env.maxBurst t := by
  cases hm with
  | faulted r what => exact h.raise r _ what
  | read r v hidle => exact h.hostRead _ r v hidle
  | wrote r d hidle hw => exact h.hostWrite r d hidle hw
  | accepted op o hr => exact h.acceptRequest _ op o hr

/-- The host's step answers a next state and keeps the invariant. -/
theorem Inv.hostStep (h : Inv Config.env.maxBurst s) : ∃ t, hostStep s = .next t ∧ Inv Config.env.maxBurst t := by
  obtain ⟨t, ht, hcases⟩ := hostStep_cases s
  refine ⟨t, ht, ?_⟩
  rcases hcases with rfl | ⟨rest, hmove⟩
  · exact h
  · exact hmove.inv (h.unread _ rest _ _)

end Sys2Proof.Machine
end

section
/-!
PROOFS. The controller's step keeps the invariant (41_bus_commands.md R122 to R130).
-/

namespace Sys2Proof.Machine

variable {m : Nat} {c : Pend} {s t : State}

/-- A command in flight was admitted with MSA written: its START needed it, or it found the bus held (R120, R121). -/
theorem PendOk.msa_written (p : PendOk c s) (held : s.cstate ≠ .idle → s.msa ≠ none) : s.msa ≠ none := by
  obtain ⟨haddr, -⟩ := p.latched
  cases hstart : c.start with
  | true =>
    obtain ⟨-, hne, -⟩ := p.started hstart
    rwa [← haddr]
  | false =>
    refine held fun hidle => ?_
    cases hrun : c.run with
    | true => rcases p.going hstart hrun with ⟨hc, -⟩ | ⟨hc, -⟩ <;> simp [hc] at hidle
    | false =>
      obtain ⟨-, -, hc⟩ := p.stopOnly hrun
      exact hc hidle

theorem Base.settled (h : Base m s) (hc : s.pend = some c) (f : CtlFrame s t) (k : Settled c s t) : Base m t := by
  have p := h.pendOk c hc
  exact ⟨by rw [k.busy, k.pend]; rfl, fun d hd => by simp [k.pend] at hd, k.oneLatch, by rw [f.mtpr]; exact h.legalClock,
    fun _ => ⟨by rw [f.msa]; exact p.msa_written fun hne => (h.held hne).1, by rw [f.mtpr]; exact p.clock⟩,
    by rw [f.initDone, f.mtpr]; exact h.initClock, by rw [f.rbuf]; exact h.rbufSize, by rw [f.n]; exact h.count,
    by rw [f.op, f.wbuf, f.n]; exact h.wbufSize⟩

/-! ### What the engine waits for -/

/-- A transmit without STOP leaves the bus in Tx, or an error (R125, R128, R129). -/
theorem Settled.landed_tx {start ack : Bool} (k : Settled c s t) (hc : s.pend = some c)
    (hw : Awaits start false ack .tx s) : Landed .tx t := by
  obtain ⟨-, hstop, -, -, hdir⟩ := hw c hc
  unfold Landed
  cases he : errorFlag t with
  | true => exact k.failed he
  | false => simpa [hdir] using k.clean he hstop

/-- A receive that was acknowledged leaves the bus in Rx, or an error (R126, R129). -/
theorem Settled.landed_rx {start : Bool} (k : Settled c s t) (hc : s.pend = some c)
    (hw : Awaits start false true .rx s) : Landed .rx t := by
  obtain ⟨-, hstop, -, hack, hdir⟩ := hw c hc
  unfold Landed
  cases he : errorFlag t with
  | true => exact k.failed he
  | false => simpa [hdir, hack] using k.clean he hstop

/-- A command with STOP releases the bus (R127). -/
theorem Settled.released {start ack : Bool} {dir : Dir} (k : Settled c s t) (hc : s.pend = some c)
    (hw : Awaits start true ack dir s) : t.cstate = .idle := by
  obtain ⟨-, hstop, -⟩ := hw c hc
  exact k.stopped hstop

/-- MDR holds a value after a receive, be it unspecified (R126, R129). -/
theorem Settled.mdr_received {start stop ack : Bool} (k : Settled c s t) (hc : s.pend = some c)
    (hw : Awaits start stop ack .rx s) : t.mdr ≠ none := by
  obtain ⟨-, -, hrun, -, hdir⟩ := hw c hc
  exact k.received hrun hdir

theorem Settled.awaits {start stop ack : Bool} {dir : Dir} (k : Settled c s t) : Awaits start stop ack dir t :=
  fun d hd => by simp [k.pend] at hd

theorem Settled.awaitsStop (k : Settled c s t) : AwaitsStop t := fun d hd => by simp [k.pend] at hd

/-- Where the engine holds the bus, no command is in flight. -/
theorem Holding.free {st : CState} (h : Holding st s) : s.busy = false := by
  obtain ⟨hfree, -⟩ := h
  exact hfree

/-- The completion of a command leaves what stands at the engine's position (R195.4). -/
theorem engineAtOk_settled (hb : s.busy = true) (hc : s.pend = some c) (f : CtlFrame s t) (k : Settled c s t)
    (h : EngineAtOk s) : EngineAtOk t := by
  revert h
  unfold EngineAtOk
  rw [f.epc, f.op, f.estate, f.tpr, f.n]
  cases s.epc.label with
  | i0 | i1 | t0 => exact id
  | a1 | abort | x1 =>
    rintro ⟨-, hfree⟩
    simp [hb] at hfree
  | a2 | a3 =>
    rintro ⟨-, hfree, -⟩
    simp [hb] at hfree
  | l3 | s3 =>
    rintro ⟨-, -, hfree, -⟩
    simp [hb] at hfree
  | w1 | r1 | b4 | q1 =>
    rintro ⟨-, -, hhold⟩
    simp [hhold.free] at hb
  | w2 | r2 | r4 | b5 =>
    rintro ⟨-, -, hhold, -⟩
    simp [hhold.free] at hb
  | b1 | m1 | l1 =>
    rintro ⟨-, -, -, hhold⟩
    simp [hhold.free] at hb
  | b2 | q2 | q4 | m3 | s1 =>
    rintro ⟨-, -, -, hhold, -⟩
    simp [hhold.free] at hb
  | a4 =>
    rintro ⟨hest, hwait, -⟩
    exact ⟨hest, k.awaits, fun _ => k.landed_tx hc hwait⟩
  | x2 =>
    rintro ⟨hest, hwait, -⟩
    obtain ⟨-, hstop, -⟩ := hwait c hc
    exact ⟨hest, k.awaitsStop, fun _ => k.stopped hstop⟩
  | w3 | b6 =>
    rintro ⟨hop, hest, hwait, -⟩
    exact ⟨hop, hest, k.awaits, fun _ => k.released hc hwait⟩
  | b3 =>
    rintro ⟨hop, hn, hest, hwait, -⟩
    exact ⟨hop, hn, hest, k.awaits, fun _ => k.landed_tx hc hwait⟩
  | q3 | m2 =>
    rintro ⟨hop, hn, hest, hwait, -⟩
    exact ⟨hop, hn, hest, k.awaits, fun _ => ⟨k.landed_rx hc hwait, k.mdr_received hc hwait⟩⟩
  | r3 | l2 | s2 =>
    rintro ⟨hop, hest, hwait, -⟩
    exact ⟨hop, hest, k.awaits, fun _ => ⟨k.released hc hwait, k.mdr_received hc hwait⟩⟩

theorem Inv.settled (h : Inv m s) (hb : s.busy = true) (hc : s.pend = some c) (f : CtlFrame s t) (k : Settled c s t) :
    Inv m t := by
  have b := h.base.settled hc f k
  cases ha : s.eact with
  | false => exact b.inv (by rw [f.eact, ha]) (by rw [f.estate]; exact h.idleEngine ha)
  | true =>
    exact b.inv_active (by rw [f.eact, ha]) (by rw [f.op, f.initDone, f.n]; exact h.running ha)
      (by rw [f.op, f.epc]; exact h.txn ha) (engineAtOk_settled hb hc f k (h.engine ha))

theorem Inv.complete (h : Inv m s) (E : Env) : Inv m (complete E s) := by
  rcases complete_cases E s with heq | ⟨hb, -, c, hc, heq⟩ <;> rw [heq]
  · exact h
  · exact h.settled hb hc (frame_runCommand E c s) (settled_runCommand E c s (h.pendOk c hc))

end Sys2Proof.Machine
end

section
/-!
PROOFS. What a running transaction's step can do under the invariant, and the blocks it is built from: its access is legal, so it
goes on to a position that is as it must be, or it finishes (43_engine.md R171 to R178, 44_transactions.md R195).
-/

namespace Sys2Proof.Machine

variable {E : Env} {m : Nat} {s t : State}

/-- A transaction runs, in the invariant. -/
structure RunsTxn (m : Nat) (s : State) : Prop where
  inv : Inv m s
  active : s.eact = true
  txn : s.op ≠ .init

/-- What a step of a running transaction can do: go on in the invariant, or finish its request with the bus released. The kept
part holds the fault record, so neither is a fault (R195.1, R195.4). -/
inductive TxnMoves (E : Env) (m : Nat) (s : State) : State → Prop
  | moved {t : State} (inv : Inv m t) (active : t.eact = true) (kept : engineKept t = engineKept s) : TxnMoves E m s t
  | finished {t : State} (st : Status) (base : Base m t) (free : t.busy = false) (idle : t.cstate = .idle)
      (kept : engineKept t = engineKept s) (he : t.he = s.he) : TxnMoves E m s (finishRequest E st t)

/-- The invariant after the step: R32's while the engine is idle. -/
theorem TxnMoves.inv (h : TxnMoves E m s t) : Inv m t := by
  cases h with
  | moved inv => exact inv
  | finished st base => exact (base.finishRequest E st).inv rfl rfl

theorem RunsTxn.isTxn (h : RunsTxn m s) : Op.isTxn s.op = true := by
  have hop := h.txn
  cases hs : s.op with
  | init => exact absurd hs hop
  | _ => rfl

/-- INIT has run, so the clock is written (R170, R160). -/
theorem RunsTxn.clock (h : RunsTxn m s) : s.mtpr ≠ none := by
  obtain ⟨hinit, -⟩ := h.inv.running h.active
  exact h.inv.initClock (hinit h.isTxn)

/-- A running burst has a byte to move (R170). -/
theorem RunsTxn.one_le_n (h : RunsTxn m s) (hburst : Op.isBurst s.op = true) : 1 ≤ s.n := by
  obtain ⟨-, hn⟩ := h.inv.running h.active
  exact hn hburst

/-- A step that keeps the kept part and arrives at a position that is as it must be. -/
theorem RunsTxn.arrives (h : RunsTxn m s) (b : Base m t) (ha : t.eact = true) (hk : engineKept t = engineKept s)
    (hE : EngineAtOk t) : TxnMoves E m s t :=
  .moved (h.inv.moves h.active b (ha.trans h.active.symm) (congrArg State.op hk :) (congrArg State.initDone hk :)
    (congrArg State.n hk :) h.txn hE) ha hk

theorem RunsTxn.stays (h : RunsTxn m s) : TxnMoves E m s s := .moved h.inv h.active rfl

/-! ### Register writes (R101, R102) -/

/-- The state after the engine's write of byte `b` (R101, R102). -/
def written (r : Reg) (b : Byte) (s : State) : State := logAccess .engine .wr r (b.setWidth 32) (writeEffect r b s)

theorem Base.written (h : Base m s) (r : Reg) (b : Byte) (hw : writeFault r b s = none) : Base m (written r b s) :=
  (h.writeEffect r b hw).logAccess _ _ _ _

theorem RunsTxn.writeMsa (h : RunsTxn m s) (hb : s.busy = false) (b : Byte) (l : Label) (i : Nat)
    (hE : EngineAtOk (goto l i (written .msa b s))) : TxnMoves E m s (engineWrite .msa b (goto l i) s) := by
  have hw : writeFault .msa b s = none := by simp [writeFault, hb]
  rw [engineWrite_done .msa b _ s hw]
  exact h.arrives ((h.inv.base.written .msa b hw).goto l i) h.active rfl hE

theorem RunsTxn.writeMdr (h : RunsTxn m s) (hb : s.busy = false) (b : Byte) (l : Label) (i : Nat)
    (hE : EngineAtOk (goto l i (written .mdr b s))) : TxnMoves E m s (engineWrite .mdr b (goto l i) s) := by
  have hw : writeFault .mdr b s = none := by simp [writeFault, hb]
  rw [engineWrite_done .mdr b _ s hw]
  exact h.arrives ((h.inv.base.written .mdr b hw).goto l i) h.active rfl hE

/-- A byte that the burst's buffer holds (R192). -/
theorem RunsTxn.writeBufByte (h : RunsTxn m s) (hb : s.busy = false) (k : Nat) (hk : k < s.wbuf.length) (l : Label) (i : Nat)
    (hE : ∀ b, some b = s.wbuf[k]? → EngineAtOk (goto l i (written .mdr b s))) :
    TxnMoves E m s (writeBufByte E k l i s) := by
  have hbyte : s.wbuf[k]? = some s.wbuf[k] := List.getElem?_eq_getElem hk
  unfold Machine.writeBufByte
  rw [hbyte]
  exact h.writeMdr hb _ l i (hE _ hbyte.symm)

/-! ### Reads and polls (R106, R172, R173) -/

/-- The state with all that a read and the storing of its value may change put to fixed values. -/
def readKept (s : State) : State := { s with hr := [], draws := 0, snap := 0#8, rbuf := [], rdata := 0#8 }

/-- A state on the way of a step from `s`, after its read. -/
structure AfterRead (m : Nat) (s t : State) : Prop where
  base : Base m t
  same : readKept t = readKept s

theorem AfterRead.n (a : AfterRead m s t) : t.n = s.n := (congrArg State.n a.same :)

theorem AfterRead.epc (a : AfterRead m s t) : t.epc = s.epc := (congrArg State.epc a.same :)

theorem AfterRead.estate (a : AfterRead m s t) : t.estate = s.estate := (congrArg State.estate a.same :)

theorem AfterRead.busy (a : AfterRead m s t) : t.busy = s.busy := (congrArg State.busy a.same :)

theorem AfterRead.cstate (a : AfterRead m s t) : t.cstate = s.cstate := (congrArg State.cstate a.same :)

theorem AfterRead.eact (a : AfterRead m s t) : t.eact = s.eact := (congrArg State.eact a.same :)

theorem AfterRead.kept (a : AfterRead m s t) : engineKept t = engineKept s := (congrArg engineKept a.same :)

theorem AfterRead.holding {st : CState} (a : AfterRead m s t) (h : Holding st s) : Holding st t :=
  (congrArg (Holding st) a.same).mpr h

/-- A position reads nothing that a read changes. -/
theorem AfterRead.engineAtOk (a : AfterRead m s t) (e : EState) (l : Label) (i : Nat)
    (hE : EngineAtOk (goto l i { s with estate := e })) : EngineAtOk (goto l i { t with estate := e }) := by
  have hsame := congrArg (fun u => EngineAtOk (goto l i { u with estate := e })) a.same
  exact hsame.mpr hE

/-- On to a position, with the transaction state `e` (R178). -/
theorem RunsTxn.goOnAs (h : RunsTxn m s) (a : AfterRead m s t) (e : EState) (l : Label) (i : Nat)
    (hE : EngineAtOk (goto l i { s with estate := e })) : TxnMoves E m s (goto l i { t with estate := e }) :=
  h.arrives ((a.base.estate e).goto l i) (a.eact.trans h.active) a.kept (a.engineAtOk e l i hE)

/-- On to a position, in the same transaction state. -/
theorem RunsTxn.goOn (h : RunsTxn m s) (a : AfterRead m s t) (l : Label) (i : Nat) (hE : EngineAtOk (goto l i s)) :
    TxnMoves E m s (goto l i t) := by
  have hmove : TxnMoves E m s (goto l i { t with estate := t.estate }) :=
    h.goOnAs a t.estate l i (by rw [a.estate]; exact hE)
  exact hmove

/-- A request finishes where the bus is released (R171). -/
theorem AfterRead.finishes (a : AfterRead m s t) (hb : s.busy = false) (hidle : s.cstate = .idle) (st : Status) :
    TxnMoves E m s (finishRequest E st t) :=
  .finished st a.base (a.busy.trans hb) (a.cstate.trans hidle) a.kept (congrArg State.he a.same :)

/-- A poll holds while busy, else it goes on with the error test's answer in `s` (R172, R173). -/
theorem RunsTxn.poll (h : RunsTxn m s) {k : State → State}
    (hk : ∀ t, s.busy = false → AfterRead m s t → err t.snap = errorFlag s → TxnMoves E m s (k t)) :
    TxnMoves E m s (poll E k s) := by
  rcases poll_cases E k s with ⟨-, heq⟩ | ⟨hb, heq⟩ <;> rw [heq]
  · exact h.stays
  · exact hk _ hb ⟨h.inv.base.polled E, rfl⟩ (err_polled E s hb)

/-- After the poll of a command without STOP: to ABORT on an error, else on (R177). -/
theorem RunsTxn.pollErr (h : RunsTxn m s) {k : State → State}
    (hk : ∀ t, s.busy = false → errorFlag s = false → AfterRead m s t → TxnMoves E m s (k t)) :
    TxnMoves E m s (Machine.poll E (checkErr k) s) := by
  refine h.poll fun t hb a herr => ?_
  unfold checkErr
  rw [herr]
  split
  · exact h.goOnAs a .error .abort 0 ⟨rfl, hb⟩
  next hok => exact hk t hb (by simpa using hok) a

/-- The engine reads MDR where it holds a value (R106). -/
theorem RunsTxn.readMdr (h : RunsTxn m s) (hb : s.busy = false) (hm : s.mdr ≠ none) {k : Byte → State → State}
    (hk : ∀ v t, AfterRead m s t → TxnMoves E m s (k v t)) : TxnMoves E m s (engineRead E .mdr k s) := by
  obtain ⟨v, hv⟩ := Option.ne_none_iff_exists'.mp hm
  rw [engineRead_mdr E k s v hb hv]
  exact hk v _ ⟨h.inv.base.congr rfl, rfl⟩

/-- MDR holds a byte of the burst's buffer (R192). -/
theorem mdr_ne_none_of_byte {k : Nat} (hmdr : s.mdr = s.wbuf[k]?) (hk : k < s.wbuf.length) : s.mdr ≠ none := by
  rw [hmdr, List.getElem?_eq_getElem hk]
  exact Option.some_ne_none _

/-- The byte goes to the receive buffer, whose size stays (R193). -/
theorem RunsTxn.readToBuf (h : RunsTxn m s) (hb : s.busy = false) (hm : s.mdr ≠ none) (i : Nat) {next : State → State}
    (hk : ∀ t, AfterRead m s t → TxnMoves E m s (next t)) : TxnMoves E m s (readToBuf E i next s) := by
  refine h.readMdr hb hm fun v t a => hk _ ⟨a.base.congr ?_, a.same⟩
  simp [baseFields]

/-- The engine holds the bus after a command without STOP that met no error (R128, R129). -/
theorem Landed.holding {st : CState} (h : Landed st s) (hb : s.busy = false) (hok : errorFlag s = false) : Holding st s := by
  unfold Landed at h
  rw [hok] at h
  exact ⟨hb, h, hok⟩

/-! ### Commands (R120, R121, R175) -/

/-- The state after the engine's issue of a command that is latched (R120). -/
def sent (w : Byte) (e : EState) (l : Label) (i : Nat) (s : State) : State :=
  goto l i { logAccess .engine .wr .mcs (w.setWidth 32)
    { clearLatches s with pend := some (latchedPend w s), busy := true } with estate := e }

theorem engineCommand_sent (w : Byte) (e : EState) (l : Label) (i : Nat) (hb : s.busy = false) (hw : acceptFault w s = none)
    (hstop : ¬ (w.setWidth 4 = 0x4#4 ∧ s.cstate = .idle)) : engineCommand w e l i s = sent w e l i s := by
  rw [engineCommand_done w e l i s hb hw]
  unfold acceptEffect
  rw [if_neg hstop]
  rfl

theorem Base.command (h : Base m s) (w : Byte) (e : EState) (l : Label) (i : Nat) (hb : s.busy = false)
    (hw : acceptFault w s = none) : Base m (engineCommand w e l i s) := by
  rw [engineCommand_done w e l i s hb hw]
  have hmcs : writeFault .mcs w s = none := by simp [writeFault, hb, hw]
  exact (((h.writeEffect .mcs w hmcs).logAccess _ _ _ _).estate e).goto l i

/-- What the engine then waits for is the command it sent. -/
theorem awaits_sent (w : Byte) (e : EState) (l : Label) (i : Nat) {dir : Dir} (hrun : cmdRunBit w = true)
    (hdir : cmdDir (cmdStartBit w) (rsBit s.msa) s.cstate = some dir) :
    Awaits (cmdStartBit w) (cmdStopBit w) (cmdAckBit w) dir (sent w e l i s) := by
  intro c hc
  cases hc
  exact ⟨rfl, rfl, hrun, rfl, hdir⟩

/-- What a position asks of a state with nothing in flight, it does not ask of one that just sent a command. -/
theorem of_sent_free {w : Byte} {e : EState} {l : Label} {i : Nat} {p : Prop} (h : (sent w e l i s).busy = false) : p :=
  Bool.noConfusion h

theorem word_ne_stop_of_run (w : Byte) (h : cmdRunBit w = true) : w.setWidth 4 ≠ 0x4#4 := by
  revert w
  decide

/-- The issue of a command with a data phase, which no check refuses. -/
theorem RunsTxn.command (h : RunsTxn m s) {w : Byte} {e : EState} {l : Label} {i : Nat} {dir : Dir} (hb : s.busy = false)
    (hw : acceptFault w s = none) (hrun : cmdRunBit w = true)
    (hdir : cmdDir (cmdStartBit w) (rsBit s.msa) s.cstate = some dir)
    (hE : Awaits (cmdStartBit w) (cmdStopBit w) (cmdAckBit w) dir (sent w e l i s) → EngineAtOk (sent w e l i s)) :
    TxnMoves E m s (engineCommand w e l i s) := by
  have b := h.inv.base.command w e l i hb hw
  rw [engineCommand_sent w e l i hb hw fun k => word_ne_stop_of_run w hrun k.1] at b ⊢
  exact h.arrives b h.active rfl (hE (awaits_sent w e l i hrun hdir))

/-- A transmit goes on in Tx (R121): CMD_RUN and CMD_STOP_RUN. -/
theorem RunsTxn.transmit (h : RunsTxn m s) {w : Byte} {e : EState} {l : Label} {i : Nat} (hw : w = 0x01#8 ∨ w = 0x05#8)
    (hhold : Holding .tx s) (hmdr : s.mdr ≠ none)
    (hE : Awaits false (cmdStopBit w) false .tx (sent w e l i s) → EngineAtOk (sent w e l i s)) :
    TxnMoves E m s (engineCommand w e l i s) := by
  obtain ⟨hb, hc, -⟩ := hhold
  have hclock := h.clock
  rcases hw with rfl | rfl <;>
    exact h.command hb (by simp [acceptFault, hclock, hc, hmdr]) rfl (by simp [cmdDir, hc]) hE

/-- A receive goes on in Rx (R121): CMD_STOP_RUN and CMD_RUN_ACK. -/
theorem RunsTxn.receive (h : RunsTxn m s) {w : Byte} {e : EState} {l : Label} {i : Nat} (hw : w = 0x05#8 ∨ w = 0x09#8)
    (hhold : Holding .rx s)
    (hE : Awaits false (cmdStopBit w) (cmdAckBit w) .rx (sent w e l i s) → EngineAtOk (sent w e l i s)) :
    TxnMoves E m s (engineCommand w e l i s) := by
  obtain ⟨hb, hc, -⟩ := hhold
  have hclock := h.clock
  rcases hw with rfl | rfl <;>
    exact h.command hb (by simp [acceptFault, hclock, hc, cmdDir]) rfl (by simp [cmdDir, hc]) hE

/-- A START with RS = 0 is admitted in every bus state (R121): CMD_START_RUN. -/
theorem RunsTxn.startTransmit (h : RunsTxn m s) {e : EState} {l : Label} {i : Nat} (hb : s.busy = false)
    (hmsa : s.msa = some (saByte s.dev false)) (hmdr : s.mdr ≠ none)
    (hE : Awaits true false false .tx (sent 0x03#8 e l i s) → EngineAtOk (sent 0x03#8 e l i s)) :
    TxnMoves E m s (engineCommand 0x03#8 e l i s) := by
  have hclock := h.clock
  exact h.command hb (by simp [acceptFault, hclock, hmsa, hmdr]) rfl (by simp [cmdDir, hmsa]) hE

/-- A START with RS = 1 is admitted in every bus state (R121): CMD_START_STOP_RUN and CMD_START_RUN_ACK. -/
theorem RunsTxn.startReceive (h : RunsTxn m s) {w : Byte} {e : EState} {l : Label} {i : Nat} (hw : w = 0x07#8 ∨ w = 0x0B#8)
    (hhold : Holding .tx s) (hmsa : s.msa = some (saByte s.dev true))
    (hE : Awaits true (cmdStopBit w) (cmdAckBit w) .rx (sent w e l i s) → EngineAtOk (sent w e l i s)) :
    TxnMoves E m s (engineCommand w e l i s) := by
  obtain ⟨hb, -⟩ := hhold
  have hclock := h.clock
  rcases hw with rfl | rfl <;>
    exact h.command hb (by simp [acceptFault, hclock, hmsa, cmdDir]) rfl (by simp [cmdDir, hmsa]) hE

end Sys2Proof.Machine
end

section
/-!
PROOFS. The positions of a transaction, one by one, and with INIT's two every step of the machine (43_engine.md R160, R174 to
R178, 44_transactions.md R190 to R193).
-/

namespace Sys2Proof.Machine

variable {E : Env} {m : Nat} {s t : State}

/-! ### Positions with a branch of their own -/

/-- After the addressing phase each operation has its first step (R190 to R193). -/
theorem RunsTxn.afterAddressing (h : RunsTxn m s) (b : Base m t) (ha : t.eact = true) (hk : engineKept t = engineKept s)
    (hest : t.estate = .addrWriteDone) (hhold : Holding .tx t) : TxnMoves E m s (afterAddressing t) := by
  unfold Machine.afterAddressing
  cases hop : t.op with
  | init => exact absurd ((congrArg State.op hk).symm.trans hop) h.txn
  | writeOne => exact h.arrives (b.goto .w1 0) ha hk ⟨hop, hest, hhold⟩
  | readOne => exact h.arrives (b.goto .r1 0) ha hk ⟨hop, hest, hhold⟩
  | writeBurst =>
    dsimp only
    split
    next hn => exact h.arrives (b.goto .b1 0) ha hk ⟨hop, hn, .inl hest, hhold⟩
    · exact h.arrives (b.goto .b4 0) ha hk ⟨hop, .inl hest, hhold⟩
  | readBurst => exact h.arrives (b.goto .q1 0) ha hk ⟨hop, hest, hhold⟩

/-- A4 ends the addressing phase, or the request (R176, R177). -/
theorem RunsTxn.a4 (h : RunsTxn m s) (hland : s.busy = false → Landed .tx s) : TxnMoves E m s (stepA4 E s) := by
  refine h.pollErr fun t hb hok a => ?_
  have hhold : Holding .tx t := a.holding ((hland hb).holding hb hok)
  exact h.afterAddressing (a.base.estate .addrWriteDone) (a.eact.trans h.active) a.kept rfl hhold

/-- X1 stops the bus, at once where it is Idle (R133, R177). -/
theorem RunsTxn.x1 (h : RunsTxn m s) (hb : s.busy = false) : TxnMoves E m s (stepX1 s) := by
  have hw : acceptFault 0x04#8 s = none := by simp [acceptFault, h.clock]
  have b := h.inv.base.command 0x04#8 .stopPending .x2 0 hb hw
  unfold stepX1
  by_cases hidle : s.cstate = .idle
  · have hpend : s.pend = none := h.inv.base.pend_none hb
    have heff : acceptEffect 0x04#8 s = clearLatches s := if_pos ⟨rfl, hidle⟩
    rw [engineCommand_done _ _ _ _ s hb hw, heff] at b ⊢
    exact h.arrives b h.active rfl ⟨rfl, fun c hc => absurd (hpend.symm.trans hc) (by simp), fun _ => hidle⟩
  · rw [engineCommand_sent _ _ _ _ hb hw fun k => hidle k.2] at b ⊢
    refine h.arrives b h.active rfl ⟨rfl, fun c hc => ?_, of_sent_free⟩
    cases hc
    exact ⟨rfl, rfl, rfl⟩

/-- Q1 sets MSA for reading, and a burst of one byte goes its own way (R193). -/
theorem RunsTxn.q1 (h : RunsTxn m s) (hop : s.op = .readBurst) (hest : s.estate = .addrWriteDone) (hhold : Holding .tx s) :
    TxnMoves E m s (stepQ1 s) := by
  have hw : writeFault .msa (saByte s.dev true) s = none := by simp [writeFault, hhold.free]
  have b := h.inv.base.written .msa _ hw
  have hstep : stepQ1 s = if s.n = 1 then goto .s1 0 (written .msa (saByte s.dev true) s)
      else goto .q2 0 (written .msa (saByte s.dev true) s) := engineWrite_done _ _ _ s hw
  rw [hstep]
  split
  next hn => exact h.arrives (b.goto _ _) h.active rfl ⟨hop, hn, hest, hhold, rfl⟩
  next hn =>
    have hone : 1 ≤ s.n := h.one_le_n (by rw [hop]; rfl)
    have hmany : 1 < s.n := by omega
    exact h.arrives (b.goto _ _) h.active rfl ⟨hop, hmany, hest, hhold, rfl⟩

/-- After a byte of a read burst is stored: to a middle byte, or to the last (R193). -/
theorem RunsTxn.afterByte (h : RunsTxn m s) (a : AfterRead m s t) (k : Nat) (hop : s.op = .readBurst) (hn : 1 < s.n)
    (hest : s.estate = .dataPending) (hhold : Holding .rx s) :
    TxnMoves E m s (if k + 1 < t.n then goto .m1 k t else goto .l1 0 t) := by
  rw [a.n]
  split
  next hk => exact h.goOn a _ _ ⟨hop, hk, hest, hhold⟩
  · exact h.goOn a _ _ ⟨hop, hn, hest, hhold⟩

/-! ### Every position -/

/-- Each position by the block it is: what stands there makes its access legal (R195.4). -/
theorem RunsTxn.engineAt (h : RunsTxn m s) : TxnMoves E m s (engineAt E s) := by
  have hE := h.inv.engine h.active
  revert hE
  unfold EngineAtOk Machine.engineAt
  cases s.epc.label with
  | i0 | i1 =>
    rintro ⟨hop, -⟩
    exact absurd hop h.txn
  | t0 =>
    intro hest
    dsimp only [stepT0]
    split
    · exact h.stays
    next hb => exact h.arrives (h.inv.base.goto _ _) h.active rfl ⟨hest, by simpa using hb⟩
  | a1 =>
    rintro ⟨hest, hb⟩
    exact h.writeMsa hb _ _ _ ⟨hest, hb, rfl⟩
  | a2 =>
    rintro ⟨hest, hb, hmsa⟩
    exact h.writeMdr hb _ _ _ ⟨hest, hb, hmsa, rfl⟩
  | a3 =>
    rintro ⟨-, hb, hmsa, hmdr⟩
    exact h.startTransmit hb hmsa (by simp [hmdr]) fun hwait => ⟨rfl, hwait, of_sent_free⟩
  | a4 =>
    rintro ⟨-, -, hland⟩
    exact h.a4 hland
  | abort =>
    rintro ⟨-, hb⟩
    exact h.arrives ((h.inv.base.estate .error).goto .x1 0) h.active rfl ⟨rfl, hb⟩
  | x1 =>
    rintro ⟨-, hb⟩
    exact h.x1 hb
  | x2 =>
    rintro ⟨-, -, hidle⟩
    exact h.poll fun t hb a _ => a.finishes hb (hidle hb) .fail
  | w1 =>
    rintro ⟨hop, hest, hhold⟩
    exact h.writeMdr hhold.free _ _ _ ⟨hop, hest, hhold, rfl⟩
  | w2 =>
    rintro ⟨hop, -, hhold, hmdr⟩
    exact h.transmit (.inr rfl) hhold (by simp [hmdr]) fun hwait => ⟨hop, rfl, hwait, of_sent_free⟩
  | w3 | b6 =>
    rintro ⟨-, -, -, hidle⟩
    exact h.poll fun t hb a _ => a.finishes hb (hidle hb) _
  | r1 =>
    rintro ⟨hop, hest, hhold⟩
    exact h.writeMsa hhold.free _ _ _ ⟨hop, hest, hhold, rfl⟩
  | r2 =>
    rintro ⟨hop, -, hhold, hmsa⟩
    exact h.startReceive (.inl rfl) hhold hmsa fun hwait => ⟨hop, rfl, hwait, of_sent_free⟩
  | r3 =>
    rintro ⟨hop, hest, -, hdone⟩
    refine h.poll fun t hb a herr => ?_
    obtain ⟨hidle, hmdr⟩ := hdone hb
    rw [herr]
    split
    · exact a.finishes hb hidle .fail
    next hok =>
      have hhold : Holding .idle s := ⟨hb, hidle, by simpa using hok⟩
      exact h.goOn a _ _ ⟨hop, hest, hhold, hmdr⟩
  | r4 =>
    rintro ⟨-, -, ⟨hb, hidle, -⟩, hmdr⟩
    refine h.readMdr hb hmdr fun v t a => ?_
    have hstored : AfterRead m s { t with rdata := v } := ⟨a.base.congr rfl, a.same⟩
    exact hstored.finishes hb hidle .ok
  | b1 =>
    rintro ⟨hop, hn, hest, hhold⟩
    have hlen := h.inv.wbufSize hop
    exact h.writeBufByte hhold.free _ (by omega) _ _ fun b hbyte => ⟨hop, hn, hest, hhold, hbyte⟩
  | b2 =>
    rintro ⟨hop, hn, -, hhold, hmdr⟩
    have hlen := h.inv.wbufSize hop
    exact h.transmit (.inl rfl) hhold (mdr_ne_none_of_byte hmdr (by omega)) fun hwait => ⟨hop, hn, rfl, hwait, of_sent_free⟩
  | b3 =>
    rintro ⟨hop, hn, hest, -, hland⟩
    refine h.pollErr fun t hb hok a => ?_
    have hhold := (hland hb).holding hb hok
    rw [a.n, a.epc]
    split
    next hlt => exact h.goOn a _ _ ⟨hop, hlt, .inr hest, hhold⟩
    · exact h.goOn a _ _ ⟨hop, .inr hest, hhold⟩
  | b4 =>
    rintro ⟨hop, hest, hhold⟩
    have hlen := h.inv.wbufSize hop
    have hone : 1 ≤ s.n := h.one_le_n (by rw [hop]; rfl)
    exact h.writeBufByte hhold.free _ (by omega) _ _ fun b hbyte => ⟨hop, hest, hhold, hbyte⟩
  | b5 =>
    rintro ⟨hop, -, hhold, hmdr⟩
    have hlen := h.inv.wbufSize hop
    have hone : 1 ≤ s.n := h.one_le_n (by rw [hop]; rfl)
    exact h.transmit (.inr rfl) hhold (mdr_ne_none_of_byte hmdr (by omega)) fun hwait => ⟨hop, rfl, hwait, of_sent_free⟩
  | q1 =>
    rintro ⟨hop, hest, hhold⟩
    exact h.q1 hop hest hhold
  | q2 =>
    rintro ⟨hop, hn, -, hhold, hmsa⟩
    exact h.startReceive (.inr rfl) hhold hmsa fun hwait => ⟨hop, hn, rfl, hwait, of_sent_free⟩
  | q3 =>
    rintro ⟨hop, hn, hest, -, hland⟩
    refine h.pollErr fun t hb hok a => ?_
    obtain ⟨hrx, hmdr⟩ := hland hb
    exact h.goOn a _ _ ⟨hop, hn, hest, hrx.holding hb hok, hmdr⟩
  | q4 =>
    rintro ⟨hop, hn, hest, hhold, hmdr⟩
    exact h.readToBuf hhold.free hmdr _ fun t a => h.afterByte a 1 hop hn hest hhold
  | m1 =>
    rintro ⟨hop, hn, hest, hhold⟩
    exact h.receive (.inr rfl) hhold fun hwait => ⟨hop, hn, hest, hwait, of_sent_free⟩
  | m2 =>
    rintro ⟨hop, hn, hest, -, hland⟩
    refine h.pollErr fun t hb hok a => ?_
    obtain ⟨hrx, hmdr⟩ := hland hb
    rw [a.epc]
    exact h.goOn a _ _ ⟨hop, hn, hest, hrx.holding hb hok, hmdr⟩
  | m3 =>
    rintro ⟨hop, hn, hest, hhold, hmdr⟩
    exact h.readToBuf hhold.free hmdr _ fun t a => h.afterByte a (t.epc.i + 1) hop (by omega) hest hhold
  | l1 =>
    rintro ⟨hop, -, -, hhold⟩
    exact h.receive (.inl rfl) hhold fun hwait => ⟨hop, rfl, hwait, of_sent_free⟩
  | l2 | s2 =>
    rintro ⟨hop, hest, -, hdone⟩
    refine h.poll fun t hb a _ => ?_
    obtain ⟨hidle, hmdr⟩ := hdone hb
    exact h.goOn a _ _ ⟨hop, hest, hb, hidle, hmdr⟩
  | l3 | s3 =>
    rintro ⟨-, -, hb, hidle, hmdr⟩
    exact h.readToBuf hb hmdr _ fun t a => a.finishes hb hidle _
  | s1 =>
    rintro ⟨hop, -, -, hhold, hmsa⟩
    exact h.startReceive (.inl rfl) hhold hmsa fun hwait => ⟨hop, rfl, hwait, of_sent_free⟩

/-! ### INIT (R160) -/

/-- I0 hands a legal divisor to I1, or faults. -/
theorem Inv.stepI0 (h : Inv m s) (ha : s.eact = true) (hop : s.op = .init) (hest : s.estate = .idle) : Inv m (stepI0 s) := by
  have hrun := h.running ha
  unfold Machine.stepI0
  split
  next hok =>
    exact Base.inv_active (h.base.congr rfl) ha hrun (fun _ => .inr rfl) ⟨hop, hest, legalTpr_divisor _ _ hok⟩
  · exact h.raise _ _ _

/-- INIT's mark needs the clock written (R33). -/
theorem Base.initialised (h : Base m s) (hclock : s.mtpr ≠ none) : Base m { s with initDone := true } :=
  ⟨h.busyPend, fun c hc => (h.pendOk c hc).congr rfl rfl rfl rfl rfl, h.oneLatch, h.legalClock, h.held, fun _ => hclock,
    h.rbufSize, h.count, h.wbufSize⟩

/-- I1 holds, faults, or writes the clock and finishes. -/
theorem Inv.stepI1 (h : Inv m s) (E : Env) : Inv m (stepI1 E s) := by
  unfold Machine.stepI1
  split
  · exact h
  · rcases engineWrite_cases .mtpr s.tpr (fun t => finishRequest E .ok { t with initDone := true }) s with
      ⟨f, -, heq⟩ | ⟨hw, heq⟩ <;> rw [heq]
    · exact h.raise _ _ _
    · have b := (h.base.written .mtpr s.tpr hw).initialised (Option.some_ne_none s.tpr)
      exact (b.finishRequest E .ok).inv rfl rfl

/-- A running INIT stands at one of its two positions. -/
theorem Inv.engineAt_init (h : Inv m s) (E : Env) (ha : s.eact = true) (hop : s.op = .init) : Inv m (engineAt E s) := by
  rcases h.txn ha hop with hl | hl
  · have hE := h.engine ha
    rw [EngineAtOk, hl] at hE
    obtain ⟨-, hest⟩ := hE
    rw [engineAt, hl]
    exact h.stepI0 ha hop hest
  · rw [engineAt_i1 E s hl]
    exact h.stepI1 E

theorem Inv.engineStep (h : Inv m s) (E : Env) : Inv m (engineStep E s) := by
  unfold Machine.engineStep
  split
  next hrun =>
    obtain ⟨ha, -⟩ := hrun
    by_cases hop : s.op = .init
    · exact h.engineAt_init E ha hop
    · exact (RunsTxn.engineAt ⟨h, ha, hop⟩).inv
  · exact h

/-! ### The machine's step -/

/-- Settles O54: each agent's step keeps the invariant, and the schedule's advance is not in it. -/
theorem everyStepKeepsInv : Obligations.EveryStepKeepsInv := by
  intro s h
  have hnext : Inv Config.maxBurst (advance Config.env s) := h.advance Config.env
  cases hturn : s.turn with
  | host =>
    rw [step_host s hturn]
    exact hnext.hostStep
  | engine => exact ⟨_, step_engine s hturn, hnext.engineStep Config.env⟩
  | controller => exact ⟨_, step_controller s hturn, hnext.complete Config.env⟩

end Sys2Proof.Machine
end

section
/-!
PROOFS. While a request runs no input of the host has an effect (20_memory.md R72, 40_register_access.md R100, 43_engine.md R170).
-/

namespace Sys2Proof.Machine

variable {s : State}

/-- The outcome is the state itself with a fault of the host's recorded, EngineBusy. -/
def RefusedBusy (s : State) (r : Host.Outcome State Fault Refusal) : Prop :=
  ∃ what : Input, r = .next (raise .engineBusy .host what s)

theorem refusedBusy_hostRead (E : Env) (r : Reg) (h : s.eact = true) : RefusedBusy s (hostRead E r s) :=
  ⟨readInput r, by simp [hostRead, accessRead, accessFault_host_busy _ _ s h]⟩

theorem refusedBusy_hostWrite (r : Reg) (d : Word) (h : s.eact = true) : RefusedBusy s (hostWrite r d s) :=
  ⟨writeInput r d, by simp [hostWrite, accessWrite, accessFault_host_busy _ _ s h]⟩

theorem refusedBusy_hostRequest (E : Env) (op : Op) (o : Operands) (h : s.eact = true) :
    RefusedBusy s (hostRequest E op o s) :=
  ⟨reqInput op o, by simp [hostRequest, requestFault, h]⟩

/-- Every instruction is a read, a write or a request of the host, and EngineBusy is the first check of each (R100, R170). -/
theorem refusedBusy_exec (i : Instr) (h : s.eact = true) : RefusedBusy s (exec i s) := by
  cases i with
  | rdMsa | rdMcs | rdMdr | rdMtpr => exact refusedBusy_hostRead _ _ h
  | wrMsa | wrMcs | wrMdr | wrMtpr => exact refusedBusy_hostWrite _ _ h
  | cmdRun | cmdStartRun | cmdStop | cmdStopRun | cmdStartStopRun | cmdRunAck | cmdStartRunAck =>
    exact refusedBusy_hostWrite .mcs _ h
  | init | writeOne | readOne | writeBurst | readBurst => exact refusedBusy_hostRequest _ _ _ h

/-- An access that is none of the eight is rejected as BadAccess (R81, R100). -/
theorem decodeAcc_reject {bits : BitVec 13} {width : Nat} {data : Word} {f : Reject}
    (h : decodeAcc bits width data = .reject f) : f = .badAccess := by
  unfold decodeAcc at h
  split at h
  · cases h
    rfl
  · split at h
    · cases h
      rfl
    · split at h <;> cases h

/-- An input that is no instruction faults EngineBusy, but for an access, whose first check is BadAccess (R100). -/
theorem rejectedInput_running {inp : Input} {f : Reject} (h : s.eact = true) (hdecode : decode inp = .reject f) :
    RefusedBusy s (rejectedInput inp s) ∨
    (rejectedInput inp s = .next (raise .badAccess .host inp s) ∧ f = .badAccess) := by
  cases inp with
  | acc => exact .inr ⟨rfl, decodeAcc_reject hdecode⟩
  | cmd w => exact .inl (refusedBusy_hostWrite .mcs _ h)
  | req op o => exact .inl ⟨.req op o, by simp [rejectedInput, h]⟩

/-- Settles O30: an input that decodes runs its instruction, and any other takes its format's own fault. -/
theorem hostCannotDisturbARequest : Obligations.HostCannotDisturbARequest := by
  refine ⟨fun i s h => refusedBusy_exec i h, fun inp s h => ?_⟩
  have hbusy {r : Host.Outcome State Fault Refusal} (hr : RefusedBusy s r) :
      ∃ (f : Fault) (what : Input), r = .next (raise f .host what s) ∧
        (f = .engineBusy ∨ (f = .badAccess ∧ decode inp = .reject .badAccess)) := by
    obtain ⟨what, hwhat⟩ := hr
    exact ⟨.engineBusy, what, hwhat, .inl rfl⟩
  unfold runInput
  split
  next i _ => exact hbusy (refusedBusy_exec i h)
  next f hdecode =>
    rcases rejectedInput_running h hdecode with hr | ⟨hr, rfl⟩
    · exact hbusy hr
    · exact ⟨.badAccess, inp, hr, .inr ⟨rfl, hdecode⟩⟩

end Sys2Proof.Machine
end

section
/-!
PROOFS. A clean run of a transaction on the schedule `rounds` (41_bus_commands.md R122 to R127, 43_engine.md R172 to R176): the
oracle that plays a trace, a command's completion on it, and the engine's blocks: a register write, a command with its completion
and its poll, and a byte stored.
-/

namespace Sys2Proof.Machine

/-! ### The oracle along a trace -/

/-- The oracle, after history `h`, answers the phase of event `e` as `e` records it (R139, R141). -/
def Gives (O : Oracle) (h : List BusEvent) : BusEvent → Prop
  | .start => True
  | .rstart => True
  | .stop => True
  | .addr b a => O.addr h b = a
  | .tx b a => O.tx h b = a
  | .rx v m => O.rx h m = .byte v
  | .rxLost => ∃ m, O.rx h m = .arbLost

/-- The oracle answers every phase of a trace that follows history `h` as the trace records it. -/
def Plays (O : Oracle) : List BusEvent → List BusEvent → Prop
  | _, [] => True
  | h, e :: tr => Gives O h e ∧ Plays O (h ++ [e]) tr

theorem plays_append (O : Oracle) (h tr tr' : List BusEvent) :
    Plays O h (tr ++ tr') ↔ Plays O h tr ∧ Plays O (h ++ tr) tr' := by
  induction tr generalizing h with
  | nil => simp [Plays]
  | cons e tr ih => simp [Plays, ih, and_assoc]

/-! ### A clean completion (R122 to R127) -/

variable {E : Env} {c : Pend} {a : State}

/-- An acknowledged transmit goes on in Tx, or ends in STOP (R125). -/
theorem dataPart_transmits {b : Byte} (hdir : c.dir = some .tx) (hdata : c.data = some b)
    (hplay : Plays E.oracle a.hb [.tx b .ack]) :
    dataPart E c a = settledAs a (endState c.stop .tx) (.tx b .ack :: endEvents c.stop) := by
  obtain ⟨hack : E.oracle.tx a.hb b = .ack, -⟩ := hplay
  rw [dataPart, if_pos hdir, txPart]
  cases hstop : c.stop <;>
    simp [hdata, byteOrDraw, txPhase, hack, endCommand, stopAndFinish, finishCommand, emit, settledAs, endState, endEvents]

/-- A received byte goes to MDR; the bus goes on in Rx after the master's ACK, in Hold after its NACK, or ends in STOP (R126). -/
theorem dataPart_receives {v : Byte} (hdir : c.dir = some .rx) (hplay : Plays E.oracle a.hb [.rx v (masterAck c.ack)]) :
    dataPart E c a = { settledAs a (endState c.stop (if c.ack then .rx else .hold))
      (.rx v (masterAck c.ack) :: endEvents c.stop) with mdr := some v } := by
  obtain ⟨hbyte : E.oracle.rx a.hb (masterAck c.ack) = .byte v, -⟩ := hplay
  rw [dataPart, if_neg (by simp [hdir]), rxPart]
  cases hstop : c.stop <;>
    simp [rxPhase, hbyte, endCommand, stopAndFinish, finishCommand, emit, settledAs, endState, endEvents]

/-- A command without START is its data phase (R122). -/
theorem runCommand_run (hstart : c.start = false) (hrun : c.run = true) : runCommand E c a = dataPart E c a := by
  simp [runCommand, hstart, hrun]

/-- An acknowledged address is followed by the data phase (R123, R124). -/
theorem runCommand_start {m : Byte} (hstart : c.start = true) (haddr : c.addr = some m)
    (hplay : Plays E.oracle a.hb [startEvent c.origin, .addr m .ack]) :
    runCommand E c a = dataPart E c (emit (.addr m .ack) (emit (startEvent c.origin) a)) := by
  obtain ⟨-, hack : E.oracle.addr (a.hb ++ [startEvent c.origin]) m = .ack, -⟩ := hplay
  have hphase : addrPhase E m (startPhase c.origin a) = (.ack, emit (.addr m .ack) (emit (startEvent c.origin) a)) := by
    have hemit : startPhase c.origin a = emit (startEvent c.origin) a := rfl
    rw [hemit, addrPhase, emit_hb, hack]
  simp [runCommand, hstart, startPart, haddr, byteOrDraw, hphase]

theorem settledAs_emit (e : BusEvent) (st : CState) (tr : List BusEvent) :
    settledAs (emit e a) st tr = settledAs a st (e :: tr) := by
  simp [settledAs, emit]

/-- START, the address, and a transmit (R132, R135). -/
theorem runCommand_startTransmits {m b : Byte} (hstart : c.start = true) (haddr : c.addr = some m) (hdir : c.dir = some .tx)
    (hdata : c.data = some b) (hplay : Plays E.oracle a.hb [startEvent c.origin, .addr m .ack, .tx b .ack]) :
    runCommand E c a = settledAs a (endState c.stop .tx)
      (startEvent c.origin :: .addr m .ack :: .tx b .ack :: endEvents c.stop) := by
  obtain ⟨haddressed, hdataPhase⟩ := (plays_append _ _ [startEvent c.origin, .addr m .ack] [.tx b .ack]).mp hplay
  rw [runCommand_start hstart haddr haddressed, dataPart_transmits hdir hdata (by simpa using hdataPhase), settledAs_emit,
    settledAs_emit]

/-- START, the address, and a receive (R132, R135, R137). -/
theorem runCommand_startReceives {m v : Byte} (hstart : c.start = true) (haddr : c.addr = some m) (hdir : c.dir = some .rx)
    (hplay : Plays E.oracle a.hb [startEvent c.origin, .addr m .ack, .rx v (masterAck c.ack)]) :
    runCommand E c a = { settledAs a (endState c.stop (if c.ack then .rx else .hold))
      (startEvent c.origin :: .addr m .ack :: .rx v (masterAck c.ack) :: endEvents c.stop) with mdr := some v } := by
  obtain ⟨haddressed, hdataPhase⟩ :=
    (plays_append _ _ [startEvent c.origin, .addr m .ack] [.rx v (masterAck c.ack)]).mp hplay
  rw [runCommand_start hstart haddr haddressed, dataPart_receives hdir (by simpa using hdataPhase), settledAs_emit,
    settledAs_emit]

/-! ### Rounds -/

theorem rounds_add (j k : Nat) (s : State) : rounds E (j + k) s = rounds E k (rounds E j s) := by
  induction j generalizing s with
  | zero => rw [Nat.zero_add]; rfl
  | succ j ih => rw [Nat.succ_add]; exact ih _

theorem Inv.oneRound {m : Nat} {s : State} (h : Inv m s) (E : Env) : Inv m (oneRound E s) := by
  unfold Machine.oneRound
  split
  · exact h.complete E
  · exact h.engineStep E

theorem Inv.rounds {m : Nat} {s : State} (h : Inv m s) (E : Env) (k : Nat) : Inv m (rounds E k s) := by
  induction k generalizing s with
  | zero => exact h
  | succ k ih => exact ih (h.oneRound E)

/-! ### Where the engine stands -/

variable {r s t : State} {p : Pos} {st st' : CState} {h evs : List BusEvent} {ws : List Byte}

/-- In the clean run of the request accepted in `r`, the engine stands at position `p` with nothing in flight: the bus is in `st`,
HB is `h`, and the engine's command words so far are `ws`. -/
structure Stands (r : State) (p : Pos) (st : CState) (h : List BusEvent) (ws : List Byte) (t : State) : Prop where
  clock : r.mtpr ≠ none
  unstopped : stopped .engine r = false
  kept : engineKept t = engineKept { r with cstate := st, hb := h }
  active : t.eact = true
  free : t.busy = false
  pos : t.epc = p
  commands : engineCommands t = ws

theorem Stands.cstate (k : Stands r p st h ws t) : t.cstate = st := (congrArg State.cstate k.kept :)
theorem Stands.hb (k : Stands r p st h ws t) : t.hb = h := (congrArg State.hb k.kept :)
theorem Stands.op (k : Stands r p st h ws t) : t.op = r.op := (congrArg State.op k.kept :)
theorem Stands.dev (k : Stands r p st h ws t) : t.dev = r.dev := (congrArg State.dev k.kept :)
theorem Stands.reg (k : Stands r p st h ws t) : t.reg = r.reg := (congrArg State.reg k.kept :)
theorem Stands.n (k : Stands r p st h ws t) : t.n = r.n := (congrArg State.n k.kept :)
theorem Stands.wbuf (k : Stands r p st h ws t) : t.wbuf = r.wbuf := (congrArg State.wbuf k.kept :)

theorem Stands.mtpr (k : Stands r p st h ws t) : t.mtpr ≠ none := by
  have hsame : t.mtpr = r.mtpr := (congrArg State.mtpr k.kept :)
  exact hsame ▸ k.clock

theorem Stands.running (k : Stands r p st h ws t) : stopped .engine t = false := by
  have hsame : stopped .engine t = stopped .engine r := (congrArg (stopped .engine) k.kept :)
  exact hsame.trans k.unstopped

/-- A state reached by what changes neither the kept part nor the engine's commands. -/
theorem Stands.arrives {p' : Pos} (k : Stands r p st h ws s) (hkept : engineKept t = engineKept s) (hact : t.eact = s.eact)
    (hfree : t.busy = s.busy) (hpos : t.epc = p') (hws : engineCommands t = engineCommands s) : Stands r p' st h ws t :=
  ⟨k.clock, k.unstopped, hkept.trans k.kept, hact.trans k.active, hfree.trans k.free, hpos, hws.trans k.commands⟩

theorem Stands.jump (k : Stands r p st h ws s) (l : Label) (i : Nat) : Stands r ⟨l, i⟩ st h ws (goto l i s) :=
  k.arrives rfl rfl rfl rfl rfl

/-- While nothing is in flight a round is the engine's step at its position. -/
theorem Stands.round (k : Stands r p st h ws s) : rounds E 1 s = engineAt E s := by
  simp [rounds, oneRound, k.free, engineStep, k.active, k.running]

/-- One round writes MSA or MDR (R101, R102). -/
theorem Stands.writes (k : Stands r p st h ws s) {g : Reg} {b : Byte} {next : State → State} (hg : g = .msa ∨ g = .mdr)
    (hat : engineAt E s = engineWrite g b next s) :
    rounds E 1 s = next (written g b s) ∧ Stands r p st h ws (written g b s) := by
  have hfree := k.free
  rw [k.round, hat]
  rcases hg with rfl | rfl
  · exact ⟨engineWrite_msa b next s hfree, k.arrives rfl rfl rfl k.pos (by simp [engineCommands, written, writeEffect])⟩
  · exact ⟨engineWrite_mdr b next s hfree, k.arrives rfl rfl rfl k.pos (by simp [engineCommands, written, writeEffect])⟩

/-- One round stores MDR's byte in the receive buffer (R193). -/
theorem Stands.stores (k : Stands r p st h ws s) {i : Nat} {v : Byte} {next : State → State} (hmdr : s.mdr = some v)
    (hat : engineAt E s = readToBuf E i next s) :
    ∃ t, rounds E 1 s = next t ∧ Stands r p st h ws t ∧ t.rbuf = s.rbuf.set i v ∧ t.snap = s.snap := by
  rw [k.round, hat, readToBuf, engineRead_mdr E _ s v k.free hmdr]
  exact ⟨_, rfl, k.arrives rfl rfl rfl k.pos (by simp [engineCommands]), rfl, rfl⟩

/-! ### A command, its completion and the poll after it -/

/-- The engine after the poll of a clean command: no error read, MDR holds `m`, and the receive buffer is still `buf`. -/
structure AfterPoll (r : State) (p : Pos) (st : CState) (h : List BusEvent) (ws : List Byte) (m : Option Byte)
    (buf : List Byte) (t : State) : Prop extends Stands r p st h ws t where
  noError : err t.snap = false
  mdr : t.mdr = m
  rbuf : t.rbuf = buf

/-- At `s` the engine issues command word `w` and goes to position `(l, i)`, where it polls and goes on by `next` (R172, R175). -/
structure Issues (E : Env) (s : State) (w : Byte) (l : Label) (i : Nat) (next : State → State) : Prop where
  issues : ∃ e, engineAt E s = engineCommand w e l i s
  polls : ∀ t, t.epc = ⟨l, i⟩ → engineAt E t = poll E next t

/-- Three rounds: the engine sends `w`, the controller completes it cleanly, the engine polls and goes on by `next` (R122, R172,
R175). -/
theorem Stands.exchange (k : Stands r p st h ws s) {w : Byte} {l : Label} {i : Nat} {next : State → State} {m : Option Byte}
    (hissue : Issues E s w l i next) (hw : acceptFault w s = none) (hrun : cmdRunBit w = true)
    (hstall : E.oracle.stall h = false)
    (hcmd : ∀ e, runCommand E (latchedPend w s) (sent w e l i s) = { settledAs (sent w e l i s) st' evs with mdr := m }) :
    ∃ t, rounds E 3 s = next t ∧ AfterPoll r ⟨l, i⟩ st' (h ++ evs) (ws ++ [w]) m s.rbuf t := by
  have hfree := k.free
  obtain ⟨⟨e, hissue⟩, hpoll⟩ := hissue
  have hsend : oneRound E s = sent w e l i s := by
    have hround : oneRound E s = engineAt E s := k.round
    rw [hround, hissue, engineCommand_sent w e l i hfree hw fun hc => word_ne_stop_of_run w hrun hc.1]
  have hhb : (sent w e l i s).hb = h := k.hb
  have hcomplete : oneRound E (sent w e l i s) = { settledAs (sent w e l i s) st' evs with mdr := m } := by
    have hround : oneRound E (sent w e l i s) = complete E (sent w e l i s) := rfl
    rw [hround, complete_running E _ (latchedPend w s) rfl rfl (hhb ▸ hstall), hcmd e]
  have hsettled : Stands r ⟨l, i⟩ st' (h ++ evs) (ws ++ [w]) { settledAs (sent w e l i s) st' evs with mdr := m } := by
    refine ⟨k.clock, k.unstopped, ?_, k.active, rfl, rfl, ?_⟩
    · have hkept := congrArg (fun u : State => { u with cstate := st', hb := h ++ evs }) k.kept
      rw [← k.hb] at hkept ⊢
      exact hkept
    · rw [← k.commands]
      simp [engineCommands, settledAs, sent]
  refine ⟨polled E { settledAs (sent w e l i s) st' evs with mdr := m }, ?_, ?_, ?_, rfl, rfl⟩
  · have hlast : rounds E 3 s = rounds E 1 (oneRound E (oneRound E s)) := rfl
    rw [hlast, hsend, hcomplete, hsettled.round, hpoll _ rfl]
    exact poll_idle E next _ rfl
  · exact hsettled.arrives rfl rfl rfl rfl (by simp [engineCommands, polled])
  · rw [err_polled E _ rfl]
    rfl

/-- CMD_RUN and CMD_STOP_RUN in Tx send MDR's byte (R131, R134). -/
theorem Stands.transmits (k : Stands r p .tx h ws s) {w b : Byte} {l : Label} {i : Nat} {next : State → State}
    (hw : w = 0x01#8 ∨ w = 0x05#8) (hissue : Issues E s w l i next) (hstall : E.oracle.stall h = false) (hmdr : s.mdr = some b)
    (hplay : Plays E.oracle h [.tx b .ack]) :
    ∃ t, rounds E 3 s = next t ∧ AfterPoll r ⟨l, i⟩ (endState (cmdStopBit w) .tx)
      (h ++ .tx b .ack :: endEvents (cmdStopBit w)) (ws ++ [w]) (some b) s.rbuf t := by
  rw [← k.hb] at hplay
  have hcmd (hstart : cmdStartBit w = false) (hrun : cmdRunBit w = true) (e : EState) :
      runCommand E (latchedPend w s) (sent w e l i s) = { settledAs (sent w e l i s) (endState (cmdStopBit w) .tx)
        (.tx b .ack :: endEvents (cmdStopBit w)) with mdr := some b } := by
    rw [runCommand_run hstart hrun, dataPart_transmits (a := sent w e l i s)
      (by simp [latchedPend, hstart, cmdDir, k.cstate]) hmdr hplay, ← hmdr]
    rfl
  rcases hw with rfl | rfl <;>
    exact k.exchange hissue (by simp [acceptFault, k.mtpr, k.cstate, hmdr]) rfl hstall (hcmd rfl rfl)

/-- CMD_STOP_RUN and CMD_RUN_ACK in Rx receive a byte into MDR (R134, R136). -/
theorem Stands.receives (k : Stands r p .rx h ws s) {w v : Byte} {l : Label} {i : Nat} {next : State → State}
    (hw : w = 0x05#8 ∨ w = 0x09#8) (hissue : Issues E s w l i next) (hstall : E.oracle.stall h = false)
    (hplay : Plays E.oracle h [.rx v (masterAck (cmdAckBit w))]) :
    ∃ t, rounds E 3 s = next t ∧ AfterPoll r ⟨l, i⟩ (endState (cmdStopBit w) (if cmdAckBit w then .rx else .hold))
      (h ++ .rx v (masterAck (cmdAckBit w)) :: endEvents (cmdStopBit w)) (ws ++ [w]) (some v) s.rbuf t := by
  rw [← k.hb] at hplay
  have hcmd (hstart : cmdStartBit w = false) (hrun : cmdRunBit w = true) (e : EState) :=
    (runCommand_run (E := E) (c := latchedPend w s) (a := sent w e l i s) hstart hrun).trans
      (dataPart_receives (v := v) (by simp [latchedPend, hstart, cmdDir, k.cstate]) hplay)
  rcases hw with rfl | rfl <;>
    exact k.exchange hissue (by simp [acceptFault, k.mtpr, k.cstate, cmdDir]) rfl hstall (hcmd rfl rfl)

/-- CMD_START_RUN with RS = 0 in Idle addresses the device and sends MDR's byte (R132). -/
theorem Stands.startTransmits (k : Stands r p .idle h ws s) {m b : Byte} {l : Label} {i : Nat}
    {next : State → State} (hissue : Issues E s 0x03#8 l i next) (hstall : E.oracle.stall h = false)
    (hmsa : s.msa = some m) (hrs : rsBit (some m) = false) (hmdr : s.mdr = some b)
    (hplay : Plays E.oracle h [.start, .addr m .ack, .tx b .ack]) :
    ∃ t, rounds E 3 s = next t ∧ AfterPoll r ⟨l, i⟩ .tx (h ++ [.start, .addr m .ack, .tx b .ack]) (ws ++ [0x03#8]) (some b)
      s.rbuf t := by
  have hstart : startEvent s.cstate = .start := by rw [k.cstate]; rfl
  rw [← k.hb, ← hstart] at hplay
  have hcmd (e : EState) : runCommand E (latchedPend 0x03#8 s) (sent 0x03#8 e l i s) =
      { settledAs (sent 0x03#8 e l i s) .tx [.start, .addr m .ack, .tx b .ack] with mdr := some b } := by
    rw [runCommand_startTransmits rfl hmsa (by simp [latchedPend, cmdDir, hmsa, hrs]) hmdr hplay, ← hmdr, ← hstart]
    rfl
  exact k.exchange hissue (by simp [acceptFault, k.mtpr, hmsa, hmdr]) rfl hstall hcmd

/-- CMD_START_STOP_RUN and CMD_START_RUN_ACK with RS = 1 in Tx address the device again and receive a byte (R135, R137). -/
theorem Stands.startReceives (k : Stands r p .tx h ws s) {w m v : Byte} {l : Label} {i : Nat}
    {next : State → State} (hw : w = 0x07#8 ∨ w = 0x0B#8) (hissue : Issues E s w l i next) (hstall : E.oracle.stall h = false)
    (hmsa : s.msa = some m) (hrs : rsBit (some m) = true)
    (hplay : Plays E.oracle h [.rstart, .addr m .ack, .rx v (masterAck (cmdAckBit w))]) :
    ∃ t, rounds E 3 s = next t ∧ AfterPoll r ⟨l, i⟩ (endState (cmdStopBit w) (if cmdAckBit w then .rx else .hold))
      (h ++ .rstart :: .addr m .ack :: .rx v (masterAck (cmdAckBit w)) :: endEvents (cmdStopBit w)) (ws ++ [w]) (some v)
      s.rbuf t := by
  have hrstart : startEvent s.cstate = .rstart := by rw [k.cstate]; rfl
  rw [← k.hb, ← hrstart] at hplay
  have hcmd (hstart : cmdStartBit w = true) (e : EState) :=
    runCommand_startReceives (E := E) (c := latchedPend w s) (a := sent w e l i s) hstart hmsa
      (by simp [latchedPend, hstart, cmdDir, hmsa, hrs]) hplay
  rw [← hrstart]
  rcases hw with rfl | rfl <;>
    exact k.exchange hissue (by simp [acceptFault, k.mtpr, hmsa, hrs, cmdDir]) rfl hstall (hcmd rfl)

end Sys2Proof.Machine
end

section
/-!
PROOFS. WRITE_BURST and READ_BURST on a bus that plays their clean traces, on the schedule `rounds` (20_memory.md R62,
43_engine.md R176, 44_transactions.md R192, R193).
-/

namespace Sys2Proof.Machine

variable {E : Env} {r s t : State} {p : Pos} {st : CState} {h : List BusEvent} {ws : List Byte}

/-! ### The traces and the command words -/

/-- The addressing phase (R176): START, the device's address for writing, the register. -/
def addressTrace (dev : DevAddr) (reg : Byte) : List BusEvent := [.start, .addr (saByte dev false) .ack, .tx reg .ack]

/-- The bytes of a write burst, and STOP (R192). -/
def payloadTrace (bytes : List Byte) : List BusEvent := bytes.map (fun b => .tx b .ack) ++ [.stop]

/-- The bytes of a read burst, the last of which is not acknowledged, and STOP (R193). -/
def receiveTrace (body : List Byte) (last : Byte) : List BusEvent := body.map (fun v => .rx v .ack) ++ [.rx last .nack, .stop]

/-- A clean write burst (R192). -/
def writeTrace (dev : DevAddr) (reg : Byte) (bytes : List Byte) : List BusEvent := addressTrace dev reg ++ payloadTrace bytes

/-- A clean read burst (R193). -/
def readTrace (dev : DevAddr) (reg : Byte) (body : List Byte) (last : Byte) : List BusEvent :=
  addressTrace dev reg ++ ([.rstart, .addr (saByte dev true) .ack] ++ receiveTrace body last)

/-- The command words of a write burst's payload (R192). -/
def payloadWords (n : Nat) : List Byte := List.replicate (n - 1) 0x01#8 ++ [0x05#8]

/-- The command words of a read burst after the addressing phase (R193). -/
def receiveWords (n : Nat) : List Byte :=
  if n = 1 then [0x07#8] else 0x0B#8 :: List.replicate (n - 2) 0x09#8 ++ [0x05#8]

/-! ### The start and the end of a request -/

/-- The request accepted in `r` has finished with result `res`: the block is at rest, HB is `h`, and the engine's command words
are `ws`. -/
structure Finished (r : State) (h : List BusEvent) (ws : List Byte) (res : Result) (t : State) : Prop where
  kept : engineKept t = engineKept { r with cstate := .idle, hb := h }
  idle : t.eact = false
  free : t.busy = false
  commands : engineCommands t = ws
  result : hostResult t = some res

theorem Finished.hb {res : Result} (f : Finished r h ws res t) : t.hb = h := (congrArg State.hb f.kept :)

theorem checkErr_clean (k : State → State) (hok : err t.snap = false) : checkErr k t = k t := by
  simp [checkErr, hok]

/-- With the bus released and no error read the request is OK (R171, R173). -/
theorem Stands.finishes {res : Result} (k : Stands r p .idle h ws t) (hok : err t.snap = false)
    (hres : (finishResult E .ok t).1 = res) : Finished r h ws res (finishByErr E t) := by
  have hfinish : finishByErr E t = finishRequest E .ok t := by simp [finishByErr, hok]
  rw [hfinish, finishRequest_state, hres]
  exact ⟨k.kept, rfl, k.free, k.commands, by simp [hostResult]⟩

/-- An accepted transaction with bytes to move stands at its entry guard T0 (R170, R174). -/
theorem stands_acceptRequest {op : Op} {o : Operands} (hready : readyToRun E s) (htxn : op ≠ .init)
    (hn : ¬ (Op.isBurst op = true ∧ o.n = 0)) :
    Stands (acceptRequest E op o s) ⟨.t0, 0⟩ .idle s.hb (engineCommands s) (acceptRequest E op o s) := by
  obtain ⟨hinv, -, hfree, hidle, hinit, hrun⟩ := hready
  rw [acceptRequest_running E op o s hn, if_neg htxn]
  cases op with
  | init => exact absurd rfl htxn
  | writeOne | readOne | writeBurst | readBurst =>
    exact ⟨hinv.initClock hinit, hrun, by rw [← hidle]; rfl, rfl, hfree, rfl, rfl⟩

/-- An accepted request that does not finish at once keeps INIT's mark and the fault record (R170). -/
theorem acceptRequest_keeps {op : Op} {o : Operands} (hn : ¬ (Op.isBurst op = true ∧ o.n = 0)) :
    (acceptRequest E op o s).initDone = s.initDone ∧ (acceptRequest E op o s).faults = s.faults := by
  rw [acceptRequest_running E op o s hn]
  cases op <;> exact ⟨rfl, rfl⟩

/-- A finished request leaves the block ready for the next (R171). -/
theorem Finished.ready {op : Op} {o : Operands} {res : Result} {k : Nat}
    (f : Finished (acceptRequest E op o s) h ws res (rounds E k (acceptRequest E op o s))) (hready : readyToRun E s)
    (hn : ¬ (Op.isBurst op = true ∧ o.n = 0)) (hadmits : requestFault E op o s = none) :
    readyToRun E (rounds E k (acceptRequest E op o s)) := by
  obtain ⟨hinv, -, -, -, hinit, hrun⟩ := hready
  obtain ⟨hkeepInit, hkeepFaults⟩ := acceptRequest_keeps (E := E) (s := s) hn
  refine ⟨(hinv.acceptRequest E op o hadmits).rounds E k, f.idle, f.free, (congrArg State.cstate f.kept :), ?_, ?_⟩
  · exact (congrArg State.initDone f.kept).trans (hkeepInit.trans hinit)
  · have hfaults : (rounds E k (acceptRequest E op o s)).faults = s.faults :=
      (congrArg State.faults f.kept).trans hkeepFaults
    rw [stopped, hfaults]
    exact hrun

/-! ### The addressing phase (R174, R176) -/

/-- Six rounds from the entry guard address the device and select its register. -/
theorem Stands.addresses (k : Stands r ⟨.t0, 0⟩ .idle h ws s) (hstall : ∀ h, E.oracle.stall h = false)
    (hplay : Plays E.oracle h (addressTrace r.dev r.reg)) :
    ∃ t, rounds E 6 s = afterAddressing t ∧ Stands r ⟨.a4, 0⟩ .tx (h ++ addressTrace r.dev r.reg) (ws ++ [0x03#8]) t ∧
      t.rbuf = s.rbuf := by
  have hguard : rounds E 1 s = goto .a1 0 s := by
    rw [k.round, engineAt, k.pos]
    exact if_neg (by simp [k.free])
  have k1 := k.jump .a1 0
  obtain ⟨hmsa, k2⟩ := k1.writes (E := E) (b := saByte r.dev false) (.inl rfl) (by rw [engineAt, ← k.dev]; rfl)
  have k2 := k2.jump .a2 0
  obtain ⟨hmdr, k3⟩ := k2.writes (E := E) (b := r.reg) (.inr rfl) (by rw [engineAt, ← k.reg]; rfl)
  have k3 := k3.jump .a3 0
  obtain ⟨t, hsent, kt⟩ := k3.startTransmits (m := saByte r.dev false)
    ⟨⟨_, rfl⟩, fun t ht => by rw [engineAt, ht]; rfl⟩ (hstall h) rfl (rsBit_saByte _ _) rfl hplay
  have hsix : rounds E 6 s = rounds E 3 (rounds E 1 (rounds E 1 (rounds E 1 s))) := rfl
  refine ⟨{ t with estate := .addrWriteDone }, ?_, kt.toStands.arrives rfl rfl rfl kt.pos rfl, kt.rbuf⟩
  rw [hsix, hguard, hmsa, hmdr, hsent]
  exact checkErr_clean _ kt.noError

/-- An accepted transaction latches its device and its register (R31, R170). -/
theorem acceptRequest_latches {op : Op} {o : Operands} (htxn : op ≠ .init) (hn : ¬ (Op.isBurst op = true ∧ o.n = 0)) :
    (acceptRequest E op o s).op = op ∧ (acceptRequest E op o s).dev = BitVec.ofNat 7 o.dev ∧
      (acceptRequest E op o s).reg = BitVec.ofNat 8 o.reg ∧ (acceptRequest E op o s).rbuf = s.rbuf := by
  rw [acceptRequest_running E op o s hn]
  cases op with
  | init => exact absurd rfl htxn
  | writeOne | readOne | writeBurst | readBurst => exact ⟨rfl, rfl, rfl, rfl⟩

/-- Six rounds after its acceptance a transaction has addressed its device. -/
theorem addresses_acceptRequest {op : Op} {o : Operands} (hready : readyToRun E s) (htxn : op ≠ .init)
    (hn : ¬ (Op.isBurst op = true ∧ o.n = 0)) (hstall : ∀ h, E.oracle.stall h = false)
    (hplay : Plays E.oracle s.hb (addressTrace (BitVec.ofNat 7 o.dev) (BitVec.ofNat 8 o.reg))) :
    ∃ t, rounds E 6 (acceptRequest E op o s) = afterAddressing t ∧ t.op = op ∧ t.rbuf = s.rbuf ∧
      Stands (acceptRequest E op o s) ⟨.a4, 0⟩ .tx (s.hb ++ addressTrace (BitVec.ofNat 7 o.dev) (BitVec.ofNat 8 o.reg))
        (engineCommands s ++ [0x03#8]) t := by
  obtain ⟨hop, hdev, hreg, hrbuf⟩ := acceptRequest_latches (E := E) (s := s) htxn hn
  rw [← hdev, ← hreg] at hplay ⊢
  obtain ⟨t, hsix, kt, hbuf⟩ := (stands_acceptRequest hready htxn hn).addresses hstall hplay
  exact ⟨t, hsix, kt.op.trans hop, hbuf.trans hrbuf, kt⟩

/-! ### WRITE_BURST (R192) -/

/-- Where the engine sends byte `i` of `n`: in the loop, or after it. -/
def payloadPos (n i : Nat) : Pos := if i + 1 < n then ⟨.b1, i⟩ else ⟨.b4, 0⟩

theorem Stands.toPayload (k : Stands r p st h ws s) (i : Nat) :
    Stands r (payloadPos r.n i) st h ws (if i + 1 < s.n then goto .b1 i s else goto .b4 0 s) := by
  rw [k.n, payloadPos]
  split
  · exact k.jump _ _
  · exact k.jump _ _

/-- A byte that the burst's buffer holds is written to MDR (R192). -/
theorem writeBufByte_held {i j : Nat} {l : Label} {b : Byte} (hb : s.wbuf[i]? = some b) :
    writeBufByte E i l j s = engineWrite .mdr b (goto l j) s := by
  simp [writeBufByte, hb, byteOrDraw]

/-- B1 to B3: four rounds send a byte that is not the last. -/
theorem Stands.sendsByte {i : Nat} {b : Byte} (k : Stands r ⟨.b1, i⟩ .tx h ws s) (hstall : ∀ h, E.oracle.stall h = false)
    (hb : r.wbuf[i]? = some b) (hplay : Plays E.oracle h [.tx b .ack]) :
    Stands r (payloadPos r.n (i + 1)) .tx (h ++ [.tx b .ack]) (ws ++ [0x01#8]) (rounds E 4 s) := by
  have hstep : stepB1 E s = engineWrite .mdr b (goto .b2 i) s := by
    rw [stepB1, k.pos]
    exact writeBufByte_held (by rw [k.wbuf, hb])
  obtain ⟨hmdr, k1⟩ := k.writes (.inr rfl) (by rw [engineAt, k.pos]; exact hstep)
  obtain ⟨t, hsent, kt⟩ := (k1.jump .b2 i).transmits (.inl rfl)
    ⟨⟨_, rfl⟩, fun t ht => by rw [engineAt, ht]; rfl⟩ (hstall h) rfl hplay
  have hnext : rounds E 4 s = if i + 2 < t.n then goto .b1 (i + 1) t else goto .b4 0 t := by
    have hfour : rounds E 4 s = rounds E 3 (rounds E 1 s) := rfl
    rw [hfour, hmdr, hsent, checkErr_clean _ kt.noError, kt.pos]
    rfl
  rw [hnext]
  exact kt.toStands.toPayload (i + 1)

/-- B4 to B6: four rounds send the last byte and finish the request. -/
theorem Stands.sendsLast {b : Byte} (k : Stands r ⟨.b4, 0⟩ .tx h ws s) (hstall : ∀ h, E.oracle.stall h = false)
    (hop : r.op = .writeBurst) (hb : r.wbuf[r.n - 1]? = some b) (hplay : Plays E.oracle h [.tx b .ack]) :
    Finished r (h ++ [.tx b .ack, .stop]) (ws ++ [0x05#8]) (.status .ok) (rounds E 4 s) := by
  have hstep : stepB4 E s = engineWrite .mdr b (goto .b5 0) s := writeBufByte_held (by rw [k.wbuf, k.n, hb])
  obtain ⟨hmdr, k1⟩ := k.writes (.inr rfl) (by rw [engineAt, k.pos]; exact hstep)
  obtain ⟨t, hsent, kt⟩ := (k1.jump .b5 0).transmits (.inr rfl)
    ⟨⟨_, rfl⟩, fun t ht => by rw [engineAt, ht]; rfl⟩ (hstall h) rfl hplay
  have hnext : rounds E 4 s = finishByErr E t := by
    have hfour : rounds E 4 s = rounds E 3 (rounds E 1 s) := rfl
    rw [hfour, hmdr, hsent]
  rw [hnext]
  exact kt.toStands.finishes kt.noError (by simp [finishResult, kt.toStands.op, hop])

/-- The bytes that are left go out in order (R62, R192). -/
theorem Stands.sendsPayload (hstall : ∀ h, E.oracle.stall h = false) (hop : r.op = .writeBurst) (hlen : r.wbuf.length = r.n)
    (bs : List Byte) : ∀ (b : Byte) (before : List Byte) {h : List BusEvent} {ws : List Byte} {s : State},
      Stands r (payloadPos r.n before.length) .tx h ws s → r.wbuf = before ++ b :: bs →
      Plays E.oracle h (payloadTrace (b :: bs)) →
      Finished r (h ++ payloadTrace (b :: bs)) (ws ++ payloadWords (bs.length + 1)) (.status .ok)
        (rounds E (4 * (bs.length + 1)) s) := by
  induction bs with
  | nil =>
    intro b before h ws s k hbuf hplay
    have hn : r.n = before.length + 1 := by simp [← hlen, hbuf]
    rw [payloadPos, if_neg (by omega)] at k
    obtain ⟨hbyte, -⟩ := (plays_append _ _ [.tx b .ack] [.stop]).mp hplay
    exact k.sendsLast hstall hop (by simp [hn, hbuf]) hbyte
  | cons c bs ih =>
    intro b before h ws s k hbuf hplay
    have hn : before.length + 1 < r.n := by simp [← hlen, hbuf]
    rw [payloadPos, if_pos hn] at k
    obtain ⟨hbyte, hrest⟩ := (plays_append _ _ [.tx b .ack] (payloadTrace (c :: bs))).mp hplay
    have k1 := k.sendsByte hstall (by simp [hbuf]) hbyte
    have hlast := ih c (before ++ [b]) (by simpa using k1) (by simp [hbuf]) hrest
    have hrounds : 4 * ((c :: bs).length + 1) = 4 + 4 * (bs.length + 1) := by simp; omega
    rw [hrounds, rounds_add]
    simpa [payloadTrace, payloadWords, List.replicate_succ] using hlast

/-- The operands of a write burst of `bytes` (R192). -/
def writeOperands (dev : DevAddr) (reg : Byte) (bytes : List Byte) : Operands :=
  { dev := dev.toNat, reg := reg.toNat, n := bytes.length, wbuf := bytes.map BitVec.toNat }

/-- A write burst latches its bytes and their count (R31, R170). -/
theorem acceptRequest_bytes {dev : DevAddr} {reg : Byte} {bytes : List Byte} (hne : bytes ≠ []) :
    (acceptRequest E .writeBurst (writeOperands dev reg bytes) s).wbuf = bytes ∧
      (acceptRequest E .writeBurst (writeOperands dev reg bytes) s).n = bytes.length := by
  rw [acceptRequest_running E _ _ s fun hz => hne (List.length_eq_zero_iff.mp hz.2)]
  simp [latchRequest, writeOperands, Function.comp_def]

/-- A write burst on a bus that plays its clean trace (R192, R62). -/
theorem writeBurst_clean {dev : DevAddr} {reg : Byte} {bytes : List Byte} (hready : readyToRun E s)
    (hstall : ∀ h, E.oracle.stall h = false) (hne : bytes ≠ []) (hplay : Plays E.oracle s.hb (writeTrace dev reg bytes)) :
    Finished (acceptRequest E .writeBurst (writeOperands dev reg bytes) s) (s.hb ++ writeTrace dev reg bytes)
      (engineCommands s ++ 0x03#8 :: payloadWords bytes.length) (.status .ok)
      (rounds E (4 * bytes.length + 6) (acceptRequest E .writeBurst (writeOperands dev reg bytes) s)) := by
  obtain ⟨hbuf, hcount⟩ := acceptRequest_bytes (E := E) (s := s) (dev := dev) (reg := reg) hne
  have hn : ¬ (Op.isBurst .writeBurst = true ∧ (writeOperands dev reg bytes).n = 0) :=
    fun hz => hne (List.length_eq_zero_iff.mp hz.2)
  obtain ⟨haddr, hpay⟩ := (plays_append _ _ (addressTrace dev reg) (payloadTrace bytes)).mp hplay
  obtain ⟨t, hsix, hop, -, kt⟩ := addresses_acceptRequest hready (by decide) hn hstall (by simpa [writeOperands] using haddr)
  have hnext : rounds E 6 (acceptRequest E .writeBurst (writeOperands dev reg bytes) s) =
      if 0 + 1 < t.n then goto .b1 0 t else goto .b4 0 t := by
    rw [hsix, afterAddressing, hop]
  obtain ⟨b, bs, rfl⟩ := List.exists_cons_of_ne_nil hne
  have hpayload := Stands.sendsPayload hstall (kt.op.symm.trans hop) (by rw [hbuf, hcount]) bs b [] (kt.toPayload 0) hbuf
    (by simpa [writeOperands] using hpay)
  have hrounds : 4 * (b :: bs).length + 6 = 6 + 4 * (bs.length + 1) := by simp; omega
  rw [hrounds, rounds_add, hnext]
  simpa [writeTrace, writeOperands] using hpayload

/-! ### READ_BURST (R193) -/

/-- Where the engine receives byte `i` of `n`, after the first: in the loop, or after it. -/
def receivePos (n i : Nat) : Pos := if i + 1 < n then ⟨.m1, i⟩ else ⟨.l1, 0⟩

theorem Stands.toReceive (k : Stands r p st h ws s) (i : Nat) :
    Stands r (receivePos r.n i) st h ws (if i + 1 < s.n then goto .m1 i s else goto .l1 0 s) ∧
      (if i + 1 < s.n then goto .m1 i s else goto .l1 0 s).rbuf = s.rbuf := by
  rw [k.n, receivePos]
  split
  · exact ⟨k.jump _ _, rfl⟩
  · exact ⟨k.jump _ _, rfl⟩

/-- A byte stored after the first `i` is the next of them. -/
theorem take_succ_set {i : Nat} {v : Byte} {buf : List Byte} (hi : i < buf.length) :
    (buf.set i v).take (i + 1) = buf.take i ++ [v] := by
  rw [List.take_add_one, List.take_set_of_le (Nat.le_refl i), List.getElem?_set_self hi]
  rfl

/-- READ_BURST's result on OK is the first `n` bytes of the receive buffer (R171). -/
theorem finishResult_readBurst (hop : t.op = .readBurst) : (finishResult E .ok t).1 = .bytes .ok (t.rbuf.take t.n) := by
  rw [finishResult, hop]

/-- Q1 sets MSA for reading, and a burst of one byte goes its own way. -/
theorem Stands.turnsToRead (k : Stands r ⟨.q1, 0⟩ .tx h ws s) :
    ∃ t, rounds E 1 s = (if t.n = 1 then goto .s1 0 t else goto .q2 0 t) ∧ Stands r ⟨.q1, 0⟩ .tx h ws t ∧
      t.msa = some (saByte r.dev true) ∧ t.rbuf = s.rbuf := by
  obtain ⟨hmsa, k1⟩ := k.writes (E := E) (b := saByte r.dev true) (.inl rfl) (by rw [engineAt, k.pos, ← k.dev]; rfl)
  exact ⟨_, hmsa, k1, rfl, rfl⟩

/-- Q1 to Q4: five rounds receive the first of several bytes. -/
theorem Stands.receivesFirst {v : Byte} (k : Stands r ⟨.q1, 0⟩ .tx h ws s) (hstall : ∀ h, E.oracle.stall h = false)
    (hn : r.n ≠ 1) (hplay : Plays E.oracle h [.rstart, .addr (saByte r.dev true) .ack, .rx v .ack]) :
    Stands r (receivePos r.n 1) .rx (h ++ [.rstart, .addr (saByte r.dev true) .ack, .rx v .ack]) (ws ++ [0x0B#8])
      (rounds E 5 s) ∧ (rounds E 5 s).rbuf = s.rbuf.set 0 v := by
  obtain ⟨t, hturn, k1, hmsa, hbuf⟩ := k.turnsToRead (E := E)
  rw [if_neg (by rwa [k1.n])] at hturn
  obtain ⟨u, hsent, ku⟩ := (k1.jump .q2 0).startReceives (.inr rfl)
    ⟨⟨_, rfl⟩, fun t ht => by rw [engineAt, ht]; rfl⟩ (hstall h) hmsa (rsBit_saByte _ _) hplay
  obtain ⟨x, hstore, kx, hset, -⟩ := (ku.toStands.jump .q4 0).stores (E := E) ku.mdr (by rw [engineAt]; rfl)
  have hnext : rounds E 5 s = if 1 + 1 < x.n then goto .m1 1 x else goto .l1 0 x := by
    have hfive : rounds E 5 s = rounds E 1 (rounds E 3 (rounds E 1 s)) := rfl
    rw [hfive, hturn, hsent, checkErr_clean _ ku.noError, hstore]
  obtain ⟨kpos, hkeep⟩ := kx.toReceive 1
  rw [hnext, hkeep, hset]
  exact ⟨kpos, congrArg (List.set · 0 v) (ku.rbuf.trans hbuf)⟩

/-- M1 to M3: four rounds receive a byte that is neither the first nor the last. -/
theorem Stands.receivesByte {i : Nat} {v : Byte} (k : Stands r ⟨.m1, i⟩ .rx h ws s) (hstall : ∀ h, E.oracle.stall h = false)
    (hplay : Plays E.oracle h [.rx v .ack]) :
    Stands r (receivePos r.n (i + 1)) .rx (h ++ [.rx v .ack]) (ws ++ [0x09#8]) (rounds E 4 s) ∧
      (rounds E 4 s).rbuf = s.rbuf.set i v := by
  obtain ⟨u, hsent, ku⟩ := k.receives (.inr rfl)
    ⟨⟨s.estate, by rw [engineAt, k.pos, stepM1, k.pos]⟩, fun t ht => by rw [engineAt, ht]; rfl⟩ (hstall h) hplay
  obtain ⟨x, hstore, kx, hset, -⟩ := (ku.toStands.jump .m3 i).stores (E := E) ku.mdr (by rw [engineAt]; rfl)
  have hnext : rounds E 4 s = if i + 1 + 1 < x.n then goto .m1 (i + 1) x else goto .l1 0 x := by
    have hfour : rounds E 4 s = rounds E 1 (rounds E 3 s) := rfl
    rw [hfour, hsent, checkErr_clean _ ku.noError, ku.pos, hstore, kx.pos]
  obtain ⟨kpos, hkeep⟩ := kx.toReceive (i + 1)
  rw [hnext, hkeep, hset]
  exact ⟨kpos, congrArg (List.set · i v) ku.rbuf⟩

/-- The last byte is stored and the request finishes, with no error read at the poll before (R173). -/
theorem Stands.storesLast {i : Nat} {v : Byte} (k : Stands r p .idle h ws s) (hmdr : s.mdr = some v)
    (hok : err s.snap = false) (hop : r.op = .readBurst) (hat : engineAt E s = readToBuf E i (finishByErr E) s) :
    Finished r h ws (.bytes .ok ((s.rbuf.set i v).take r.n)) (rounds E 1 s) := by
  obtain ⟨x, hstore, kx, hset, hsnap⟩ := k.stores hmdr hat
  rw [hstore, ← hset, ← kx.n]
  exact kx.finishes (by rw [hsnap, hok]) (finishResult_readBurst (kx.op.trans hop))

/-- L1 to L3: four rounds receive the last of several bytes and finish the request. -/
theorem Stands.receivesLast {v : Byte} (k : Stands r ⟨.l1, 0⟩ .rx h ws s) (hstall : ∀ h, E.oracle.stall h = false)
    (hop : r.op = .readBurst) (hplay : Plays E.oracle h [.rx v .nack]) :
    Finished r (h ++ [.rx v .nack, .stop]) (ws ++ [0x05#8]) (.bytes .ok ((s.rbuf.set (r.n - 1) v).take r.n))
      (rounds E 4 s) := by
  obtain ⟨u, hsent, ku⟩ := k.receives (.inl rfl)
    ⟨⟨_, by rw [engineAt, k.pos]; rfl⟩, fun t ht => by rw [engineAt, ht]; rfl⟩ (hstall h) hplay
  have kl := ku.toStands.jump .l3 0
  have hlast := kl.storesLast (E := E) (i := r.n - 1) ku.mdr ku.noError hop (by rw [engineAt, ← kl.n]; rfl)
  have hfour : rounds E 4 s = rounds E 1 (rounds E 3 s) := rfl
  rw [hfour, hsent, ← ku.rbuf]
  exact hlast

/-- Q1 and S1 to S3: five rounds receive the only byte and finish the request. -/
theorem Stands.receivesOnly {v : Byte} (k : Stands r ⟨.q1, 0⟩ .tx h ws s) (hstall : ∀ h, E.oracle.stall h = false)
    (hop : r.op = .readBurst) (hn : r.n = 1)
    (hplay : Plays E.oracle h [.rstart, .addr (saByte r.dev true) .ack, .rx v .nack]) :
    Finished r (h ++ [.rstart, .addr (saByte r.dev true) .ack, .rx v .nack, .stop]) (ws ++ [0x07#8])
      (.bytes .ok ((s.rbuf.set 0 v).take r.n)) (rounds E 5 s) := by
  obtain ⟨t, hturn, k1, hmsa, hbuf⟩ := k.turnsToRead (E := E)
  rw [if_pos (by rwa [k1.n])] at hturn
  obtain ⟨u, hsent, ku⟩ := (k1.jump .s1 0).startReceives (.inl rfl)
    ⟨⟨_, rfl⟩, fun t ht => by rw [engineAt, ht]; rfl⟩ (hstall h) hmsa (rsBit_saByte _ _) hplay
  have hlast := (ku.toStands.jump .s3 0).storesLast (E := E) ku.mdr ku.noError hop (by rw [engineAt]; rfl)
  have hfive : rounds E 5 s = rounds E 1 (rounds E 3 (rounds E 1 s)) := rfl
  have hkeep : u.rbuf = s.rbuf := ku.rbuf.trans hbuf
  rw [hfive, hturn, hsent, ← hkeep]
  exact hlast

/-- The bytes that are left come in order (R62, R193). -/
theorem Stands.receivesRest (hstall : ∀ h, E.oracle.stall h = false) (hop : r.op = .readBurst) {last : Byte}
    (body : List Byte) : ∀ (got : List Byte) {h : List BusEvent} {ws : List Byte} {s : State},
      Stands r (receivePos r.n got.length) .rx h ws s → r.n = got.length + body.length + 1 → r.n ≤ s.rbuf.length →
      s.rbuf.take got.length = got → Plays E.oracle h (receiveTrace body last) →
      Finished r (h ++ receiveTrace body last) (ws ++ List.replicate body.length 0x09#8 ++ [0x05#8])
        (.bytes .ok (got ++ body ++ [last])) (rounds E (4 * (body.length + 1)) s) := by
  induction body with
  | nil =>
    intro got h ws s k hn hsize hgot hplay
    rw [receivePos, if_neg (by simp at hn; omega)] at k
    obtain ⟨hbyte, -⟩ := (plays_append _ _ [.rx last .nack] [.stop]).mp hplay
    have hlast := k.receivesLast hstall hop hbyte
    have hall : (s.rbuf.set (r.n - 1) last).take r.n = got ++ [last] := by
      simp only [List.length_nil, Nat.add_zero] at hn
      rw [hn, Nat.add_sub_cancel, take_succ_set (by omega), hgot]
    rw [hall] at hlast
    simpa [receiveTrace] using hlast
  | cons v body ih =>
    intro got h ws s k hn hsize hgot hplay
    simp only [List.length_cons] at hn
    rw [receivePos, if_pos (by omega)] at k
    obtain ⟨hbyte, hrest⟩ := (plays_append _ _ [.rx v .ack] (receiveTrace body last)).mp hplay
    obtain ⟨k1, hset⟩ := k.receivesByte hstall hbyte
    have hlast := ih (got ++ [v]) (by simpa using k1) (by simp; omega) (by simpa [hset] using hsize)
      (by rw [hset, List.length_append, List.length_singleton, take_succ_set (by omega), hgot]) hrest
    have hrounds : 4 * ((v :: body).length + 1) = 4 + 4 * (body.length + 1) := by simp; omega
    rw [hrounds, rounds_add]
    simpa [receiveTrace, List.replicate_succ] using hlast

/-- From Q1 on: the device is addressed again, and all the bytes come in order (R62, R193). -/
theorem Stands.receivesAll {body : List Byte} {last : Byte} (k : Stands r ⟨.q1, 0⟩ .tx h ws s)
    (hstall : ∀ h, E.oracle.stall h = false) (hop : r.op = .readBurst) (hn : r.n = body.length + 1)
    (hsize : r.n ≤ s.rbuf.length)
    (hplay : Plays E.oracle h ([.rstart, .addr (saByte r.dev true) .ack] ++ receiveTrace body last)) :
    Finished r (h ++ ([.rstart, .addr (saByte r.dev true) .ack] ++ receiveTrace body last)) (ws ++ receiveWords r.n)
      (.bytes .ok (body ++ [last])) (rounds E (4 * body.length + 5) s) := by
  cases body with
  | nil =>
    have hone : r.n = 1 := hn
    obtain ⟨hbyte, -⟩ := (plays_append _ _ [.rstart, .addr (saByte r.dev true) .ack, .rx last .nack] [.stop]).mp hplay
    have honly := k.receivesOnly hstall hop hone hbyte
    rw [hone, take_succ_set (by omega)] at honly
    simpa [receiveTrace, receiveWords, hone] using honly
  | cons v body =>
    simp only [List.length_cons] at hn
    obtain ⟨hbyte, hrest⟩ :=
      (plays_append _ _ [.rstart, .addr (saByte r.dev true) .ack, .rx v .ack] (receiveTrace body last)).mp hplay
    obtain ⟨k1, hset⟩ := k.receivesFirst hstall (by omega) hbyte
    have hfirst : (rounds E 5 s).rbuf.take 1 = [v] := by
      rw [hset, take_succ_set (by omega)]
      rfl
    have hall := Stands.receivesRest hstall hop body [v] k1 (by simp; omega) (by simpa [hset] using hsize) hfirst hrest
    have hrounds : 4 * (v :: body).length + 5 = 5 + 4 * (body.length + 1) := by simp; omega
    rw [hrounds, rounds_add]
    simpa [receiveTrace, receiveWords, hn] using hall

/-- The operands of a read burst of `n` bytes (R193). -/
def readOperands (dev : DevAddr) (reg : Byte) (n : Nat) : Operands := { dev := dev.toNat, reg := reg.toNat, n := n }

/-- A read burst latches its device and its count (R31, R170). -/
theorem acceptRequest_count {dev : DevAddr} {reg : Byte} {n : Nat} (hn : n ≠ 0) :
    (acceptRequest E .readBurst (readOperands dev reg n) s).dev = dev ∧
      (acceptRequest E .readBurst (readOperands dev reg n) s).n = n := by
  rw [acceptRequest_running E _ _ s (fun hz => hn hz.2)]
  simp [latchRequest, readOperands]

/-- A read burst on a bus that plays its clean trace (R193, R62). -/
theorem readBurst_clean {dev : DevAddr} {reg : Byte} {body : List Byte} {last : Byte} {n : Nat} (hready : readyToRun E s)
    (hstall : ∀ h, E.oracle.stall h = false) (hn : n = body.length + 1) (hmax : n ≤ E.maxBurst)
    (hplay : Plays E.oracle s.hb (readTrace dev reg body last)) :
    Finished (acceptRequest E .readBurst (readOperands dev reg n) s) (s.hb ++ readTrace dev reg body last)
      (engineCommands s ++ 0x03#8 :: receiveWords n) (.bytes .ok (body ++ [last]))
      (rounds E (4 * n + 7) (acceptRequest E .readBurst (readOperands dev reg n) s)) := by
  have hne : n ≠ 0 := by omega
  obtain ⟨hdev, hcount⟩ := acceptRequest_count (E := E) (s := s) (dev := dev) (reg := reg) hne
  obtain ⟨haddr, hrest⟩ := (plays_append _ _ (addressTrace dev reg) _).mp hplay
  obtain ⟨t, hsix, hop, hbuf, kt⟩ := addresses_acceptRequest (op := .readBurst) (o := readOperands dev reg n) hready
    (by decide) (fun hz => hne hz.2) hstall (by simpa [readOperands] using haddr)
  have hnext : rounds E 6 (acceptRequest E .readBurst (readOperands dev reg n) s) = goto .q1 0 t := by
    rw [hsix, afterAddressing, hop]
  obtain ⟨hinv, -⟩ := hready
  have hsize : n ≤ t.rbuf.length := by
    rw [hbuf, hinv.rbufSize]
    exact hmax
  have hall := (kt.jump .q1 0).receivesAll (body := body) (last := last) hstall (kt.op.symm.trans hop) (by rw [hcount, hn])
    (by rw [hcount]; exact hsize) (by rw [hdev]; simpa [readOperands] using hrest)
  rw [hdev, hcount] at hall
  have hrounds : 4 * n + 7 = 6 + (4 * body.length + 5) := by omega
  rw [hrounds, rounds_add, hnext]
  simpa [readTrace, readOperands] using hall

end Sys2Proof.Machine
end

section
/-!
PROOFS. The reference device with no forced answers (41_bus_commands.md R142): what it does at each event, that it plays the
traces of a write burst and of the read burst after it, and that the bytes come back in order (20_memory.md R62,
95_test_vectors.md P2).
-/

namespace Sys2Proof.Machine

variable {d : RefDev} {v : DevState} {f : Bool} {regs : Byte → Byte} {p : Byte} {h : List BusEvent}

/-! ### The device at each event -/

theorem RefDev.forced_none (hd : d.inject = []) (k : Nat) : d.forced k = none := by simp [RefDev.forced, hd]

theorem RefDev.after_snoc (d : RefDev) (h : List BusEvent) (e : BusEvent) : d.after (h ++ [e]) = d.onEvent (d.after h) e := by
  simp [RefDev.after]

/-- The device's own address byte names it (R82, R142). -/
theorem RefDev.named_saByte (d : RefDev) (rs : Bool) : d.named (saByte d.d0 rs) = true := by
  have hfield : ∀ dev : DevAddr, (saByte dev rs).extractLsb' 1 7 = dev := by cases rs <;> decide
  simp [RefDev.named, hfield]

/-- The device is addressed, for writing or not, with these registers and this pointer; `f` says that the pointer comes next. -/
structure Addressed (w f : Bool) (regs : Byte → Byte) (p : Byte) (v : DevState) : Prop where
  addressed : v.addressed = true
  writing : v.writing = w
  first : v.first = f
  regs : v.regs = regs
  ptr : v.ptr = p

/-- An address byte that names the device addresses it, in the byte's direction. -/
theorem addressed_addr (hd : d.inject = []) (rs : Bool) (a : Answer) :
    Addressed (!rs) true v.regs v.ptr (d.onEvent v (.addr (saByte d.d0 rs) a)) := by
  have hrs : (saByte d.d0 rs).getLsbD 0 = rs := rsBit_saByte d.d0 rs
  simp only [RefDev.onEvent, RefDev.forced_none hd, d.named_saByte, hrs]
  exact ⟨rfl, rfl, rfl, rfl, rfl⟩

/-- The first byte written is the pointer. -/
theorem Addressed.select (k : Addressed true true regs p v) (hd : d.inject = []) (b : Byte) (a : Answer) :
    Addressed true false regs b (d.onEvent v (.tx b a)) := by
  simp only [RefDev.onEvent, RefDev.forced_none hd, k.addressed, k.writing, k.first]
  exact ⟨rfl, rfl, rfl, k.regs, rfl⟩

/-- A later byte is stored, and the pointer moves on. -/
theorem Addressed.store (k : Addressed true false regs p v) (hd : d.inject = []) (b : Byte) (a : Answer) :
    Addressed true false (Function.update regs p b) (p + 1#8) (d.onEvent v (.tx b a)) := by
  simp only [RefDev.onEvent, RefDev.forced_none hd, k.addressed, k.writing, k.first, k.regs, k.ptr]
  exact ⟨rfl, rfl, rfl, funext fun x => (Function.update_apply regs p b x).symm, rfl⟩

/-- A byte read moves the pointer on. -/
theorem Addressed.fetch (k : Addressed false f regs p v) (x : Byte) (m : MasterAck) :
    Addressed false f regs (p + 1#8) (d.onEvent v (.rx x m)) := by
  simp only [RefDev.onEvent, k.addressed, k.writing, k.ptr]
  exact ⟨rfl, rfl, k.first, k.regs, rfl⟩

/-! ### Its answers -/

theorem gives_addr (hd : d.inject = []) (rs : Bool) : Gives d.oracle h (.addr (saByte d.d0 rs) .ack) := by
  simp [Gives, RefDev.oracle, RefDev.addr, RefDev.forced_none hd, d.named_saByte]

theorem Addressed.gives_tx (k : Addressed true f regs p (d.after h)) (hd : d.inject = []) (b : Byte) :
    Gives d.oracle h (.tx b .ack) := by
  simp [Gives, RefDev.oracle, RefDev.tx, RefDev.forced_none hd, k.addressed, k.writing]

theorem Addressed.gives_rx (k : Addressed false f regs p (d.after h)) (hd : d.inject = []) (m : MasterAck) :
    Gives d.oracle h (.rx (regs p) m) := by
  simp [Gives, RefDev.oracle, RefDev.rx, RefDev.forced_none hd, k.addressed, k.writing, k.regs, k.ptr]

/-! ### The registers -/

/-- The registers after these bytes are stored from `p` on. -/
def storeAll (regs : Byte → Byte) (p : Byte) : List Byte → Byte → Byte
  | [] => regs
  | b :: bs => storeAll (Function.update regs p b) (p + 1#8) bs

/-- The bytes of `n` registers from `p` on. -/
def loadAll (regs : Byte → Byte) (p : Byte) : Nat → List Byte
  | 0 => []
  | n + 1 => regs p :: loadAll regs (p + 1#8) n

/-- A register that the bytes do not reach keeps its value. -/
theorem storeAll_apply_of_ne {a : Byte} (bs : List Byte) (regs : Byte → Byte) (p : Byte)
    (hne : ∀ i < bs.length, a ≠ p + BitVec.ofNat 8 i) : storeAll regs p bs a = regs a := by
  induction bs generalizing regs p with
  | nil => rfl
  | cons b bs ih =>
    have hp : a ≠ p := by simpa using hne 0 (by simp)
    rw [storeAll, ih _ _ fun i hi => ?_, Function.update_of_ne hp]
    have hi := hne (i + 1) (by simpa using hi)
    bv_omega

/-- Up to the device's 256 registers, bytes stored are read back in order (R62). -/
theorem loadAll_storeAll (bs : List Byte) (regs : Byte → Byte) (p : Byte) (hlen : bs.length ≤ 256) :
    loadAll (storeAll regs p bs) p bs.length = bs := by
  induction bs generalizing regs p with
  | nil => rfl
  | cons b bs ih =>
    simp only [List.length_cons] at hlen
    have hhead : storeAll (Function.update regs p b) (p + 1#8) bs p = b := by
      rw [storeAll_apply_of_ne bs _ _ fun i hi => ?_, Function.update_self]
      bv_omega
    simp only [List.length_cons, loadAll, storeAll, hhead, ih _ _ (by omega)]

/-! ### The traces it plays -/

/-- After a START or a repeated START its address byte addresses it, and its registers and its pointer are kept. -/
theorem addressed_after (hd : d.inject = []) {e : BusEvent} (he : e = .start ∨ e = .rstart) (rs : Bool) (h : List BusEvent) :
    Addressed (!rs) true (d.after h).regs (d.after h).ptr (d.after (h ++ [e] ++ [.addr (saByte d.d0 rs) .ack])) := by
  rw [d.after_snoc, d.after_snoc]
  rcases he with rfl | rfl
  · exact addressed_addr (v := d.onEvent (d.after h) .start) hd rs .ack
  · exact addressed_addr (v := d.onEvent (d.after h) .rstart) hd rs .ack

/-- The addressing phase sets its pointer. -/
theorem plays_addressTrace (hd : d.inject = []) (h : List BusEvent) (reg : Byte) :
    Plays d.oracle h (addressTrace d.d0 reg) ∧
      Addressed true false (d.after h).regs reg (d.after (h ++ addressTrace d.d0 reg)) := by
  have haddr : Addressed true true _ _ _ := addressed_after hd (.inl rfl) false h
  have hselect := haddr.select hd reg .ack
  rw [← d.after_snoc] at hselect
  refine ⟨⟨trivial, gives_addr hd false, haddr.gives_tx hd reg, trivial⟩, ?_⟩
  simpa [addressTrace] using hselect

/-- It stores the payload of a write burst. -/
theorem Addressed.plays_payload (hd : d.inject = []) (bytes : List Byte) :
    ∀ {regs : Byte → Byte} {p : Byte} {h : List BusEvent}, Addressed true false regs p (d.after h) →
      Plays d.oracle h (payloadTrace bytes) ∧ (d.after (h ++ payloadTrace bytes)).regs = storeAll regs p bytes := by
  induction bytes with
  | nil =>
    intro regs p h k
    refine ⟨⟨trivial, trivial⟩, ?_⟩
    have hstop : d.after (h ++ payloadTrace []) = d.onEvent (d.after h) .stop := d.after_snoc h .stop
    rw [hstop]
    exact k.regs
  | cons b bs ih =>
    intro regs p h k
    have hstore := k.store hd b .ack
    rw [← d.after_snoc] at hstore
    obtain ⟨hplay, hregs⟩ := ih hstore
    refine ⟨⟨k.gives_tx hd b, hplay⟩, ?_⟩
    rw [storeAll, ← hregs, List.append_assoc]
    rfl

/-- It sends its registers from the pointer on. -/
theorem Addressed.plays_receive (hd : d.inject = []) {last : Byte} (body : List Byte) :
    ∀ {p : Byte} {h : List BusEvent}, Addressed false f regs p (d.after h) →
      loadAll regs p (body.length + 1) = body ++ [last] → Plays d.oracle h (receiveTrace body last) := by
  induction body with
  | nil =>
    intro p h k hload
    obtain rfl : regs p = last := by simpa [loadAll] using hload
    exact ⟨k.gives_rx hd .nack, trivial, trivial⟩
  | cons v body ih =>
    intro p h k hload
    rw [List.length_cons, loadAll, List.cons_append, List.cons.injEq] at hload
    obtain ⟨rfl, hrest⟩ := hload
    have hfetch := k.fetch (d := d) (regs p) .ack
    rw [← d.after_snoc] at hfetch
    exact ⟨k.gives_rx hd .ack, ih hfetch hrest⟩

/-- It plays a clean write burst to it, and holds the bytes after it. -/
theorem plays_writeTrace (hd : d.inject = []) (h : List BusEvent) (reg : Byte) (bytes : List Byte) :
    Plays d.oracle h (writeTrace d.d0 reg bytes) ∧
      (d.after (h ++ writeTrace d.d0 reg bytes)).regs = storeAll (d.after h).regs reg bytes := by
  obtain ⟨haddr, k⟩ := plays_addressTrace hd h reg
  obtain ⟨hpay, hregs⟩ := k.plays_payload hd bytes
  refine ⟨(plays_append _ _ _ _).mpr ⟨haddr, hpay⟩, ?_⟩
  rw [writeTrace, ← List.append_assoc, hregs]

/-- It plays a clean read burst of its registers from `reg` on. -/
theorem plays_readTrace (hd : d.inject = []) (h : List BusEvent) {reg last : Byte} {body : List Byte}
    (hload : loadAll (d.after h).regs reg (body.length + 1) = body ++ [last]) :
    Plays d.oracle h (readTrace d.d0 reg body last) := by
  obtain ⟨haddr, k⟩ := plays_addressTrace hd h reg
  have kread : Addressed false true _ _ _ := addressed_after hd (.inr rfl) true (h ++ addressTrace d.d0 reg)
  rw [k.regs, k.ptr] at kread
  have hrest := kread.plays_receive hd body hload
  exact (plays_append _ _ _ _).mpr ⟨haddr, trivial, gives_addr hd true, hrest⟩

/-! ### P2 -/

/-- A burst within its limits is admitted (R170). -/
theorem requestFault_writeOperands {E : Env} {s : State} {dev : DevAddr} {reg : Byte} {bytes : List Byte}
    (hready : readyToRun E s) (hmax : bytes.length ≤ E.maxBurst) :
    requestFault E .writeBurst (writeOperands dev reg bytes) s = none := by
  obtain ⟨-, hidle, -, -, hinit, -⟩ := hready
  have hbytes : (bytes.map BitVec.toNat).any (fun b => decide (0xFF < b)) = false := by
    simp only [List.any_map, List.any_eq_false, Function.comp_apply, decide_eq_true_eq]
    exact fun b _ => by omega
  have hok : operandsBad E.maxBurst .writeBurst (writeOperands dev reg bytes) = false := by
    have hdev : ¬ 0x7F < dev.toNat := by omega
    have hreg : ¬ 0xFF < reg.toNat := by omega
    have hn : ¬ E.maxBurst < bytes.length := by omega
    simp [operandsBad, writeOperands, Op.isTxn, Op.isBurst, hdev, hreg, hn, hbytes]
  simp [requestFault, hidle, hinit, hok]

/-- Settles O50: the device plays the trace of the write burst, then that of the read burst of what it stored. -/
theorem burstWriteThenReadKeepsOrder : Obligations.BurstWriteThenReadKeepsOrder := by
  intro E d s reg bytes hdev hinject hready hpos hmax hsize n w r
  have hstall : ∀ h, E.oracle.stall h = false := fun _ => by rw [hdev]; rfl
  have hne : bytes ≠ [] := List.ne_nil_of_length_pos hpos
  obtain ⟨hplay, hregs⟩ := plays_writeTrace hinject s.hb reg bytes
  have hwrite : Finished _ _ _ (.status .ok) w := writeBurst_clean hready hstall hne (hdev ▸ hplay)
  have hw : readyToRun E w :=
    hwrite.ready hready (fun hz => hne (List.length_eq_zero_iff.mp hz.2)) (requestFault_writeOperands hready hmax)
  obtain ⟨body, last, hbytes⟩ : ∃ body last, bytes = body ++ [last] := ⟨_, _, (List.dropLast_append_getLast hne).symm⟩
  have hcount : bytes.length = body.length + 1 := by simp [hbytes]
  have hload : loadAll (d.after w.hb).regs reg (body.length + 1) = body ++ [last] := by
    rw [hwrite.hb, hregs, ← hcount, ← hbytes]
    exact loadAll_storeAll bytes _ reg hsize
  have hread : Finished _ _ _ (.bytes .ok (body ++ [last])) r :=
    readBurst_clean hw hstall hcount hmax (hdev ▸ plays_readTrace hinject w.hb hload)
  exact ⟨hwrite.result, hbytes ▸ hread.result⟩

end Sys2Proof.Machine
end

section
/-!
PROOFS. The decoder and the encoder (30_encoding.md R81 to R87): for each format, what decodes to what and how it encodes again.
-/

namespace Sys2Proof.Machine

/-! ### Format ACC (R81) -/

/-- The window's offsets are those of its four registers (R68). -/
theorem regAt_eq_some_iff {off : BitVec 12} {r : Reg} : regAt off = some r ↔ off = r.offset := by
  constructor
  · intro h
    unfold regAt at h
    split_ifs at h <;> (cases h; assumption)
  · rintro rfl
    cases r <;> rfl

/-- A 13-bit pattern is its bit W and its OFFSET. -/
theorem accBits_ext {a b : BitVec 13} (hw : a.getLsbD 12 = b.getLsbD 12) (hoff : a.setWidth 12 = b.setWidth 12) :
    a = b :=
  calc
    a = BitVec.cons a.msb (a.setWidth 12) := (BitVec.cons_msb_setWidth a).symm
    _ = BitVec.cons b.msb (b.setWidth 12) := by rw [show a.msb = b.msb from hw, hoff]
    _ = b := BitVec.cons_msb_setWidth b

/-- The pattern of a register's read is `{0, OFFSET}`. -/
theorem readBits_fields (r : Reg) :
    (r.offset.setWidth 13).getLsbD 12 = false ∧ (r.offset.setWidth 13).setWidth 12 = r.offset := by
  cases r <;> decide

/-- The pattern of a register's write is `{1, OFFSET}`. -/
theorem writeBits_fields (r : Reg) :
    (0x1000#13 ||| r.offset.setWidth 13).getLsbD 12 = true ∧
    (0x1000#13 ||| r.offset.setWidth 13).setWidth 12 = r.offset := by
  cases r <;> decide

/-- A register's read decodes to its instruction, whatever data word stands beside it. -/
theorem decode_readAccess (r : Reg) (data : Word) : decode (.acc (r.offset.setWidth 13) 4 data) = .ok (readInstr r) := by
  cases r <;> rfl

theorem decode_writeInput (r : Reg) (data : Word) : decode (writeInput r data) = .ok (writeInstr data r) := by
  cases r <;> rfl

/-- The accesses are the four registers' reads and writes, at width 4 (R65). -/
theorem decode_acc_eq_ok {bits : BitVec 13} {width : Nat} {data : Word} {i : Instr}
    (h : decode (.acc bits width data) = .ok i) :
    width = 4 ∧ ∃ r : Reg, (bits = r.offset.setWidth 13 ∧ i = readInstr r) ∨
      (bits = 0x1000#13 ||| r.offset.setWidth 13 ∧ i = writeInstr data r) := by
  simp only [decode, decodeAcc] at h
  split at h
  · cases h
  next hwidth =>
    refine ⟨not_not.mp hwidth, ?_⟩
    split at h
    · cases h
    next r hr =>
      have hoff := regAt_eq_some_iff.mp hr
      refine ⟨r, ?_⟩
      split at h
      next hw =>
        cases h
        obtain ⟨hw', hoff'⟩ := writeBits_fields r
        exact .inr ⟨accBits_ext (hw.trans hw'.symm) (hoff.trans hoff'.symm), rfl⟩
      next hw =>
        cases h
        obtain ⟨hw', hoff'⟩ := readBits_fields r
        exact .inl ⟨accBits_ext ((Bool.eq_false_of_not_eq_true hw).trans hw'.symm) (hoff.trans hoff'.symm), rfl⟩

theorem encode_readInstr (r : Reg) : encode (readInstr r) = readInput r := by
  cases r <;> rfl

theorem encode_writeInstr (r : Reg) (data : Word) : encode (writeInstr data r) = writeInput r data := by
  cases r <;> rfl

/-- An access that decodes has the bits of its instruction's encoding, and a write its data word. -/
theorem encode_of_decode_acc {bits : BitVec 13} {width : Nat} {data : Word} {i : Instr}
    (h : decode (.acc bits width data) = .ok i) :
    width = 4 ∧ ∃ d : Word, encode i = .acc bits 4 d ∧ (bits.getLsbD 12 = true → d = data) := by
  obtain ⟨hwidth, r, ⟨rfl, rfl⟩ | ⟨rfl, rfl⟩⟩ := decode_acc_eq_ok h
  · exact ⟨hwidth, 0#32, encode_readInstr r, fun hw => absurd hw (by simp)⟩
  · exact ⟨hwidth, data, encode_writeInstr r data, fun _ => rfl⟩

/-! ### Format CMD (R83, R87) -/

/-- A command word that decodes is its instruction's own word. -/
theorem encode_of_decode_cmd {w : Byte} {i : Instr} (h : decode (.cmd w) = .ok i) : encode i = .cmd w := by
  simp only [decode, decodeCmd] at h
  split_ifs at h <;> (cases h; subst w; rfl)

/-! ### Format REQ (R86) -/

/-- The instruction of an operation, on the operands it reads. -/
def requestInstr (o : Operands) : Op → Instr
  | .init => .init o.sysclk o.target
  | .writeOne => .writeOne o.dev o.reg o.val
  | .readOne => .readOne o.dev o.reg
  | .writeBurst => .writeBurst o.dev o.reg o.n o.wbuf
  | .readBurst => .readBurst o.dev o.reg o.n

theorem opOf_eq_some_iff {bits : BitVec 3} {op : Op} : opOf bits = some op ↔ bits = op.code := by
  constructor
  · intro h
    unfold opOf at h
    split_ifs at h <;> (cases h; assumption)
  · rintro rfl
    cases op <;> rfl

theorem opOf_eq_none_iff {bits : BitVec 3} : opOf bits = none ↔ 5 ≤ bits.toNat := by
  revert bits
  decide

/-- An OP selects an operation, or is reserved. -/
theorem decode_req (bits : BitVec 3) (o : Operands) :
    decode (.req bits o) = ((opOf bits).elim (.reject .reservedOp) fun op => .ok (requestInstr o op)) := by
  simp only [decode, decodeReq]
  cases opOf bits with
  | none => rfl
  | some op => cases op <;> rfl

theorem decode_reqInput (op : Op) (o : Operands) : decode (reqInput op o) = .ok (requestInstr o op) := by
  rw [reqInput, decode_req, opOf_eq_some_iff.mpr rfl, Option.elim_some]

/-- The encoding of a request keeps the operands its operation reads. -/
theorem encode_requestInstr (op : Op) (o : Operands) : ∃ u : Operands, encode (requestInstr o op) = reqInput op u := by
  cases op <;> exact ⟨_, rfl⟩

/-- A request that decodes has the OP of its instruction's encoding. -/
theorem encode_of_decode_req {bits : BitVec 3} {o : Operands} {i : Instr} (h : decode (.req bits o) = .ok i) :
    ∃ u : Operands, encode i = .req bits u := by
  rw [decode_req] at h
  cases hop : opOf bits with
  | none => simp [hop] at h
  | some op =>
    rw [hop] at h
    cases h
    rw [opOf_eq_some_iff.mp hop]
    exact encode_requestInstr op o

/-! ### The statements -/

/-- Every instruction's encoding decodes to it: an access of a register, one of R83's words, or an operation's request. -/
theorem decode_encode (i : Instr) : decode (encode i) = .ok i := by
  cases i with
  | rdMsa => exact decode_readAccess .msa _
  | rdMcs => exact decode_readAccess .mcs _
  | rdMdr => exact decode_readAccess .mdr _
  | rdMtpr => exact decode_readAccess .mtpr _
  | wrMsa data => exact decode_writeInput .msa data
  | wrMcs data => exact decode_writeInput .mcs data
  | wrMdr data => exact decode_writeInput .mdr data
  | wrMtpr data => exact decode_writeInput .mtpr data
  | cmdRun | cmdStartRun | cmdStop | cmdStopRun | cmdStartStopRun | cmdRunAck | cmdStartRunAck => rfl
  | init => exact decode_reqInput .init _
  | writeOne => exact decode_reqInput .writeOne _
  | readOne => exact decode_reqInput .readOne _
  | writeBurst => exact decode_reqInput .writeBurst _
  | readBurst => exact decode_reqInput .readBurst _

/-- Settles O1: the round trip, and for each format what an input that decodes has in common with the encoding. -/
theorem decodeAndEncodeAgree : Obligations.DecodeAndEncodeAgree :=
  ⟨decode_encode, fun _ _ _ _ => encode_of_decode_acc, fun _ _ => encode_of_decode_cmd,
    fun _ _ _ => encode_of_decode_req⟩

/-- Settles O2: each of the eight patterns is a register's read or write, and a pattern that decodes is one of them. -/
theorem eightAccessPatterns : Obligations.EightAccessPatterns := by
  intro bits width data
  split_ifs with h h h h h h h h
  · exact h.1 ▸ h.2 ▸ decode_readAccess .msa data
  · exact h.1 ▸ h.2 ▸ decode_readAccess .mcs data
  · exact h.1 ▸ h.2 ▸ decode_readAccess .mdr data
  · exact h.1 ▸ h.2 ▸ decode_readAccess .mtpr data
  · exact h.1 ▸ h.2 ▸ decode_writeInput .msa data
  · exact h.1 ▸ h.2 ▸ decode_writeInput .mcs data
  · exact h.1 ▸ h.2 ▸ decode_writeInput .mdr data
  · exact h.1 ▸ h.2 ▸ decode_writeInput .mtpr data
  · cases hdecode : decode (.acc bits width data) with
    | ok i =>
      obtain ⟨rfl, r, ⟨rfl, -⟩ | ⟨rfl, -⟩⟩ := decode_acc_eq_ok hdecode
      · cases r <;> contradiction
      · cases r <;> contradiction
    | reject f => rw [decodeAcc_reject hdecode]

/-- Settles O3: R87's classes in its order are the decoder's own. -/
theorem commandWordsDecode : Obligations.CommandWordsDecode :=
  fun _ => rfl

/-- Settles O4: an operation's code selects it with its own operands, and the codes from 5 on select none. -/
theorem requestOpsDecode : Obligations.RequestOpsDecode := fun o =>
  ⟨decode_reqInput .init o, decode_reqInput .writeOne o, decode_reqInput .readOne o, decode_reqInput .writeBurst o,
    decode_reqInput .readBurst o, fun op hop => by rw [decode_req, opOf_eq_none_iff.mpr hop, Option.elim_none]⟩

/-- Settles O5: each word is its instruction's encoding. -/
theorem sampleWordsDecode : Obligations.SampleWordsDecode :=
  ⟨decode_encode (.wrMtpr 0x07#32), decode_encode (.wrMsa 0xD0#32), decode_encode .rdMcs, decode_encode .cmdStartRunAck,
    decode_encode (.writeOne 0x68 0x6B 0x00)⟩

/-- Bits 7:1 of an address byte are the device address (R82). -/
theorem saByte_device (dev : DevAddr) (rs : Bool) : (saByte dev rs).extractLsb' 1 7 = dev := by
  have hrs : rs.toNat < 2 := rs.toNat_lt
  apply BitVec.eq_of_toNat_eq
  rw [BitVec.extractLsb'_toNat, saByte_toNat, Nat.shiftRight_eq_div_pow]
  omega

/-- Settles O6: the byte's value gives its fields, and its low bit is the RS that a command with START takes its direction from. -/
theorem addressByteIsDeviceAndDirection : Obligations.AddressByteIsDeviceAndDirection := fun dev rs st =>
  ⟨saByte_toNat dev rs, saByte_device dev rs, rsBit_saByte dev rs, by simp [cmdDir]⟩

end Sys2Proof.Machine
end

section
/-!
PROOFS. The host's register accesses (40_register_access.md R100 to R108): the checks in their order, then the effect of a write
or the word of a read; and the inputs that are no instruction (R100, 43_engine.md R170).
-/

namespace Sys2Proof.Machine

variable {s : State}

/-! ### The checks of a write (R100 to R104) -/

theorem upperClear_eq_true_iff {d : Word} : upperClear d = true ↔ reservedClear d := beq_iff_eq

/-- EngineBusy is a write's first check. -/
theorem hostWrite_engineBusy (r : Reg) (d : Word) (hact : s.eact = true) :
    hostWrite r d s = .next (raise .engineBusy .host (writeInput r d) s) := by
  simp [hostWrite, accessWrite, accessFault_host_busy .wr d s hact]

/-- ReservedBits, of bits 31:8, is its second. -/
theorem hostWrite_reservedBits (r : Reg) (d : Word) (hidle : s.eact = false) (hd : ¬ reservedClear d) :
    hostWrite r d s = .next (raise .reservedBits .host (writeInput r d) s) := by
  have hupper : upperClear d = false := Bool.eq_false_of_not_eq_true fun h => hd (upperClear_eq_true_iff.mp h)
  simp [hostWrite, accessWrite, accessFault, hidle, hupper]

/-- BusyWrite is its third, whatever the register. -/
theorem hostWrite_busyWrite (r : Reg) (d : Word) (hidle : s.eact = false) (hd : reservedClear d) (hb : s.busy = true) :
    hostWrite r d s = .next (raise .busyWrite .host (writeInput r d) s) :=
  hostWrite_faulted r d s .busyWrite hidle (upperClear_eq_true_iff.mpr hd) (by simp [writeFault, hb])

/-- The checks MTPR adds to BUSY, in their order, on the fields of the data word (R104). -/
theorem writeFault_mtpr (d : Word) (s : State) :
    writeFault .mtpr (d.setWidth 8) s =
      if s.busy then some .busyWrite
      else if s.cstate ≠ .idle then some .configWhileActive
      else if d.getLsbD 7 then some .reservedBits
      else if d.setWidth 7 = 0#7 then some .badDivisor
      else none := by
  have hbit : (d.setWidth 8).getLsbD 7 = d.getLsbD 7 := by simp
  have htpr : (d.setWidth 8).setWidth 7 = d.setWidth 7 := BitVec.setWidth_setWidth_of_le d (by decide)
  rw [writeFault, hbit, htpr]

/-- Settles O11: BUSY is MSA's only own check, and the first three checks are every write's. -/
theorem wrMsaWrites : Obligations.WrMsaWrites :=
  ⟨decode_writeInput .msa,
    fun d s hidle hd hb => hostWrite_done .msa d s hidle (upperClear_eq_true_iff.mpr hd) (by simp [writeFault, hb]),
    fun d _ => hostWrite_engineBusy .msa d, fun d _ => hostWrite_reservedBits .msa d, fun d _ => hostWrite_busyWrite .msa d⟩

/-- Settles O12: BUSY is MDR's only own check, and the first three checks are every write's. -/
theorem wrMdrWrites : Obligations.WrMdrWrites :=
  ⟨decode_writeInput .mdr,
    fun d s hidle hd hb => hostWrite_done .mdr d s hidle (upperClear_eq_true_iff.mpr hd) (by simp [writeFault, hb]),
    fun d _ => hostWrite_engineBusy .mdr d, fun d _ => hostWrite_reservedBits .mdr d, fun d _ => hostWrite_busyWrite .mdr d⟩

/-- Settles O13: R100's two checks of a write, then MTPR's own. -/
theorem wrMtprWrites : Obligations.WrMtprWrites := by
  refine ⟨decode_writeInput .mtpr, fun d s hidle hd hb hc h7 h0 => ?_, fun d s h => ?_⟩
  · refine hostWrite_done .mtpr d s hidle (upperClear_eq_true_iff.mpr hd) ?_
    rw [writeFault_mtpr, if_neg (ne_true_of_eq_false hb), if_neg (not_not.mpr hc), if_neg (ne_true_of_eq_false h7), if_neg h0]
  · have hown (hact : ¬ s.eact = true) (hd : ¬ d.extractLsb' 8 24 ≠ 0#24) (f : Fault) :=
      hostWrite_faulted .mtpr d s f (Bool.eq_false_of_not_eq_true hact) (upperClear_eq_true_iff.mpr (not_not.mp hd))
    split_ifs with hact hd hb hc h7
    · exact hostWrite_engineBusy .mtpr d hact
    · exact hostWrite_reservedBits .mtpr d (Bool.eq_false_of_not_eq_true hact) hd
    · exact hown hact hd _ (by rw [writeFault_mtpr, if_pos hb])
    · exact hown hact hd _ (by rw [writeFault_mtpr, if_neg hb, if_pos hc])
    · exact hown hact hd _ (by rw [writeFault_mtpr, if_neg hb, if_neg hc, if_pos h7])
    · have h0 : d.setWidth 7 = 0#7 :=
        ((((h.resolve_left hact).resolve_left hd).resolve_left hb).resolve_left hc).resolve_left h7
      exact hown hact hd _ (by rw [writeFault_mtpr, if_neg hb, if_neg hc, if_neg h7, if_pos h0])

/-! ### The issue of a command (R103, R120) -/

/-- A command word's instruction is the word's write to MCS. -/
theorem exec_of_decode_cmd {w : Byte} {i : Instr} (h : decode (.cmd w) = .ok i) (s : State) : exec i s = hostCommand w s := by
  simp only [decode, decodeCmd] at h
  split_ifs at h <;> (cases h; subst w; rfl)

/-- The host's issue of a command with a data phase, which no check refuses. -/
theorem hostCommand_issued (w : Byte) (hq : quiet s) (hrun : cmdRunBit w = true) (hw : acceptFault w s = none) :
    hostCommand w s = .next (issued w (cmdStartBit w) (cmdStopBit w) true (cmdAckBit w)
      (cmdDir (cmdStartBit w) (rsBit s.msa) s.cstate) s) := by
  obtain ⟨hidle, hb⟩ := hq
  have hstop : ¬ (w.setWidth 4 = 0x4#4 ∧ s.cstate = .idle) := fun k => word_ne_stop_of_run w hrun k.1
  rw [hostCommand, hostWrite_done .mcs _ s hidle (upperClear_setWidth w) (by simp [writeFault, hb, hw]),
    setWidth_setWidth_byte, writeEffect, acceptEffect, if_neg hstop]
  unfold latchedPend
  rw [hrun]
  rfl

/-- Settles O18: a write of MCS is the issue of its word, and the first three checks are every write's. -/
theorem wrMcsIssuesTheCommand : Obligations.WrMcsIssuesTheCommand := by
  refine ⟨decode_writeInput .mcs, fun w i s h => (exec_of_decode_cmd h s).symm, fun s m b p hq hc hmsa hrs hmdr hmtpr => ?_,
    fun d _ => hostWrite_engineBusy .mcs d, fun d _ => hostWrite_reservedBits .mcs d, fun d _ => hostWrite_busyWrite .mcs d⟩
  have hrsBit : rsBit s.msa = false := by rw [hmsa]; exact hrs
  have hdir : cmdDir true (rsBit s.msa) s.cstate = some .tx := by simp [cmdDir, hrsBit]
  rw [← hdir]
  exact hostCommand_issued 0x03#8 hq rfl (by simp [acceptFault, hmsa, hmdr, hmtpr])

/-! ### Reads (R105 to R108) -/

/-- EngineBusy is a read's first check. -/
theorem hostRead_engineBusy (E : Env) (r : Reg) (hact : s.eact = true) :
    hostRead E r s = .next (raise .engineBusy .host (readInput r) s) := by
  simp [hostRead, accessRead, accessFault_host_busy .rd 0#32 s hact]

/-- The byte a register of the window holds; MCS holds none, its read being the status word. -/
def heldByte (r : Reg) (s : State) : Option Byte :=
  match r with
  | .msa => s.msa
  | .mcs => none
  | .mdr => s.mdr
  | .mtpr => s.mtpr

/-- But for BUSY at MDR, the one check of a read of a byte is that the register holds one. -/
theorem readFault_byte {r : Reg} (hr : r ≠ .mcs) (hb : r = .mdr → s.busy = false) :
    readFault r s = if heldByte r s = none then some .unwritten else none := by
  cases r with
  | mcs => exact absurd rfl hr
  | mdr => rw [readFault, if_neg (ne_true_of_eq_false (hb rfl))]; rfl
  | msa | mtpr => rfl

theorem readValue_held {r : Reg} {v : Byte} (hv : heldByte r s = some v) (drawn : Word) :
    readValue drawn r s = padByte drawn v := by
  cases r with
  | mcs => cases hv
  | msa | mdr | mtpr => exact congrArg (fun held : Option Byte => padByte drawn (held.getD _)) hv

/-- A read of a register that holds a byte, MDR's only when not busy, returns it in bits 7:0 and changes nothing but HR. -/
theorem hostRead_held (r : Reg) {v : Byte} (hidle : s.eact = false) (hb : r = .mdr → s.busy = false)
    (hv : heldByte r s = some v) :
    hostRead Config.env r s = .next { s with
      draws := s.draws + 1
      hr := s.hr ++ [{ agent := .host, kind := .rd, reg := r
                       value := (Config.freeWord s.draws &&& 0xFFFFFF00#32) ||| v.setWidth 32 }] } := by
  have hr : r ≠ .mcs := by rintro rfl; cases hv
  have hfault : readFault r s = none := by rw [readFault_byte hr hb, hv]; rfl
  rw [hostRead_done Config.env r s hidle hfault, readValue_held hv]
  rfl

/-- A read of a register that holds none faults. -/
theorem hostRead_unwritten (E : Env) (r : Reg) (hr : r ≠ .mcs) (hidle : s.eact = false) (hb : r = .mdr → s.busy = false)
    (hv : heldByte r s = none) : hostRead E r s = .next (raise .unwritten .host (readInput r) s) :=
  hostRead_faulted E r s .unwritten hidle (by rw [readFault_byte hr hb, if_pos hv])

/-- Settles O14: MSA is read as it is held. -/
theorem rdMsaReads : Obligations.RdMsaReads :=
  ⟨decode_readAccess .msa _, fun _ _ hidle => hostRead_held .msa hidle nofun,
    fun _ => hostRead_engineBusy _ .msa, fun _ hidle => hostRead_unwritten _ .msa nofun hidle nofun⟩

/-- Settles O15: MDR is read as it is held, once BUSY is found clear. -/
theorem rdMdrReads : Obligations.RdMdrReads :=
  ⟨decode_readAccess .mdr _, fun _ _ hidle hb => hostRead_held .mdr hidle fun _ => hb,
    fun _ => hostRead_engineBusy _ .mdr,
    fun s hidle hb => hostRead_faulted _ .mdr s .busyRead hidle (by simp [readFault, hb]),
    fun _ hidle hb => hostRead_unwritten _ .mdr nofun hidle fun _ => hb⟩

/-- Settles O16: MTPR is read as it is held. -/
theorem rdMtprReads : Obligations.RdMtprReads :=
  ⟨decode_readAccess .mtpr _, fun _ _ hidle => hostRead_held .mtpr hidle nofun,
    fun _ => hostRead_engineBusy _ .mtpr, fun _ hidle => hostRead_unwritten _ .mtpr nofun hidle nofun⟩

/-- Settles O17: the word is the status word, and MCS has no check of its own. -/
theorem rdMcsReadsStatus : Obligations.RdMcsReadsStatus :=
  ⟨decode_readAccess .mcs _,
    fun s hidle => ⟨statusWord (Config.freeWord s.draws) s, hostRead_done Config.env .mcs s hidle rfl, statusWord_busy _ s,
      statusWord_idle_bits _ s⟩,
    fun _ => hostRead_engineBusy _ .mcs⟩

/-! ### Inputs that are no instruction -/

theorem runInput_reject {inp : Input} {f : Reject} (h : decode inp = .reject f) (s : State) :
    runInput inp s = rejectedInput inp s := by
  rw [runInput, h]

/-- Settles O9: a rejected input takes its format's own fault, and the codes from 5 on are rejected. -/
theorem rejectedInputsFault : Obligations.RejectedInputsFault := by
  refine ⟨fun s bits width data h => runInput_reject h s, fun s op o hop => ?_⟩
  have hreject : decode (.req op o) = .reject .reservedOp := by
    rw [decode_req, opOf_eq_none_iff.mpr hop, Option.elim_none]
  exact runInput_reject hreject s

end Sys2Proof.Machine
end

section
/-!
PROOFS. What each instruction of the host may change, and so what it leaves alone (40_register_access.md R109, 43_engine.md R170).
-/

namespace Sys2Proof.Machine

variable {s t : State}

/-! ### The parts of the state -/

/-- `s` with the histories of accesses and faults and the count of draws of `u`: what every move may write. -/
def withLogsOf (u s : State) : State := { s with hr := u.hr, faults := u.faults, draws := u.draws }

/-- `s` with the controller's command side of `u`: BUSY, the pending command and the error latches (R26, R27). -/
def withCommandOf (u s : State) : State :=
  { s with busy := u.busy, pend := u.pend, adrack := u.adrack, datack := u.datack, arblst := u.arblst }

/-- `s` with what a request of the host writes taken from `u`: the request latches, the engine's position and state, the result. -/
def withRequestOf (u s : State) : State :=
  { s with
    op := u.op, dev := u.dev, reg := u.reg, val := u.val, n := u.n, wbuf := u.wbuf, sysclk := u.sysclk, target := u.target,
    estate := u.estate, epc := u.epc, status := u.status, done := u.done, eact := u.eact, he := u.he }

/-- WR MCS, or one of the seven commands (R103). -/
def CommandInstr (i : Instr) : Prop :=
  (∃ d, i = .wrMcs d) ∨ i = .cmdRun ∨ i = .cmdStartRun ∨ i = .cmdStop ∨ i = .cmdStopRun ∨ i = .cmdStartStopRun ∨
    i = .cmdRunAck ∨ i = .cmdStartRunAck

/-- One of the five requests (R170). -/
def RequestInstr (i : Instr) : Prop :=
  (∃ a b, i = .init a b) ∨ (∃ a b c, i = .writeOne a b c) ∨ (∃ a b, i = .readOne a b) ∨
    (∃ a b c d, i = .writeBurst a b c d) ∨ (∃ a b c, i = .readBurst a b c)

/-! ### What an instruction may change -/

/-- The logs apart, an instruction changes nothing (a read, a fault), or the one register or part of the state it is for. -/
inductive HostChanges (s : State) : Instr → State → Prop
  | logs (i : Instr) (u : State) : HostChanges s i (withLogsOf u s)
  | msa (d : Word) (b : Byte) (u : State) : HostChanges s (.wrMsa d) (withLogsOf u { s with msa := some b })
  | mdr (d : Word) (b : Byte) (u : State) : HostChanges s (.wrMdr d) (withLogsOf u { s with mdr := some b })
  | mtpr (d : Word) (b : Byte) (u : State) : HostChanges s (.wrMtpr d) (withLogsOf u { s with mtpr := some b })
  | command (i : Instr) (hi : CommandInstr i) (u : State) : HostChanges s i (withLogsOf u (withCommandOf u s))
  | request (i : Instr) (hi : RequestInstr i) (u : State) : HostChanges s i (withLogsOf u (withRequestOf u s))

theorem hostChanges_read (i : Instr) (E : Env) (r : Reg) (h : hostRead E r s = .next t) : HostChanges s i t := by
  rcases hostRead_cases E r s with ⟨f, hf⟩ | ⟨-, -, hdone⟩
  · cases hf.symm.trans h
    exact .logs i (raise f .host (readInput r) s)
  · cases hdone.symm.trans h
    exact .logs i (logAccess .host .rd r _ (draw E s).2)

/-- A write changes what its effect does, so this is asked of the effect alone. -/
theorem hostChanges_write {i : Instr} (r : Reg) (d : Word)
    (hi : ∀ b, HostChanges s i (logAccess .host .wr r d (writeEffect r b s))) (h : hostWrite r d s = .next t) :
    HostChanges s i t := by
  rcases hostWrite_cases r d s with ⟨f, hf⟩ | ⟨-, -, -, hdone⟩
  · cases hf.symm.trans h
    exact .logs i (raise f .host (writeInput r d) s)
  · cases hdone.symm.trans h
    exact hi _

theorem logAccess_acceptEffect_eq_withCommandOf (b : Byte) (d : Word) (s : State) :
    logAccess .host .wr .mcs d (acceptEffect b s) = withLogsOf (logAccess .host .wr .mcs d (acceptEffect b s))
      (withCommandOf (logAccess .host .wr .mcs d (acceptEffect b s)) s) := by
  unfold acceptEffect
  split <;> rfl

theorem hostChanges_command {i : Instr} (hi : CommandInstr i) (d : Word) (h : hostWrite .mcs d s = .next t) :
    HostChanges s i t := by
  refine hostChanges_write .mcs d (fun b => ?_) h
  rw [writeEffect, logAccess_acceptEffect_eq_withCommandOf]
  exact .command i hi _

theorem acceptRequest_eq_withRequestOf (E : Env) (op : Op) (o : Operands) (s : State) :
    acceptRequest E op o s = withLogsOf (acceptRequest E op o s) (withRequestOf (acceptRequest E op o s) s) := by
  unfold acceptRequest
  split
  · rw [finishRequest_state]
    cases op <;> rfl
  · cases op <;> rfl

theorem hostChanges_request {i : Instr} (hi : RequestInstr i) (E : Env) (op : Op) (o : Operands)
    (h : hostRequest E op o s = .next t) : HostChanges s i t := by
  rcases hostRequest_cases E op o s with ⟨f, -, hf⟩ | ⟨-, hdone⟩
  · cases hf.symm.trans h
    exact .logs i (raise f .host (reqInput op o) s)
  · cases hdone.symm.trans h
    rw [acceptRequest_eq_withRequestOf]
    exact .request i hi _

/-- Every instruction is a read, a write or a request of the host. -/
theorem hostChanges_exec {i : Instr} (h : exec i s = .next t) : HostChanges s i t := by
  cases i with
  | rdMsa | rdMcs | rdMdr | rdMtpr => exact hostChanges_read _ _ _ h
  | wrMsa d => exact hostChanges_write .msa d (fun b => .msa d b (logAccess .host .wr .msa d s)) h
  | wrMdr d => exact hostChanges_write .mdr d (fun b => .mdr d b (logAccess .host .wr .mdr d s)) h
  | wrMtpr d => exact hostChanges_write .mtpr d (fun b => .mtpr d b (logAccess .host .wr .mtpr d s)) h
  | wrMcs d => exact hostChanges_command (.inl ⟨d, rfl⟩) d h
  | cmdRun | cmdStartRun | cmdStop | cmdStopRun | cmdStartStopRun | cmdRunAck | cmdStartRunAck =>
    exact hostChanges_command (by simp [CommandInstr]) _ h
  | init | writeOne | readOne | writeBurst | readBurst => exact hostChanges_request (by simp [RequestInstr]) _ _ _ h

/-- Settles O33: what an instruction may change is its own part of the state, and the rest is as it was. -/
theorem hostStepFrame : Obligations.HostStepFrame := by
  intro i s t h
  cases hostChanges_exec h with
  | logs _ u => simp [withLogsOf]
  | msa d b u => simp [withLogsOf]
  | mdr d b u => simp [withLogsOf]
  | mtpr d b u => simp [withLogsOf]
  | command _ hi u => simpa [withLogsOf, withCommandOf, CommandInstr] using fun _ => hi
  | request _ hi u => simpa [withLogsOf, withRequestOf, RequestInstr] using fun _ => hi

end Sys2Proof.Machine
end

section
/-!
PROOFS. The bus commands (41_bus_commands.md): why one is refused, in R120's order, and what the completion of an accepted one
leaves, for each answer of the oracle (R122 to R137).
-/

namespace Sys2Proof.Machine

variable {E : Env} {c : Pend} {s a t : State} {w : Byte} {i : Instr}

/-! ### Admission and refusal (R120, R121, R138) -/

/-- Settles O19: the table's seven rows of words, and the nine words it does not have. -/
theorem admissionTable : Obligations.AdmissionTable := by
  intro st rs w
  unfold admitted
  split_ifs with h1 h3 h4 h5 h7 h9 hb
  case neg => simp [h1, h3, h4, h5, h7, h9, hb]
  all_goals subst w; simp

/-- The issue of a command that R120 refuses records the fault. -/
theorem hostCommand_faulted {f : Fault} (hq : quiet s) (hw : acceptFault w s = some f) :
    hostCommand w s = .next (raise f .host (writeInput .mcs (w.setWidth 32)) s) := by
  obtain ⟨hidle, hb⟩ := hq
  exact hostWrite_faulted .mcs _ s f hidle (upperClear_setWidth w) (by simp [writeFault, hb, hw])

/-- Bits 7:4 of a command word are R87's first class. -/
theorem cmdReserved_eq_false_iff : cmdReserved w = false ↔ w.extractLsb' 4 4 = 0#4 := by simp [cmdReserved]

/-- A word not admitted is refused as illegal once its reserved bits and its use of MSA pass (R120). -/
theorem acceptFault_illegal (hres : cmdReserved w = false) (hmsa : cmdStartBit w = true → s.msa ≠ none)
    (hadm : admitted s.cstate (rsBit s.msa) (w.setWidth 4) = false) : acceptFault w s = some .illegalCommand := by
  rw [acceptFault, if_neg (ne_true_of_eq_false hres), if_neg fun h => hmsa h.1 h.2, if_pos hadm]

/-- With its reserved bits clear a word is CMD_STOP's when its low half is. -/
theorem eq_stop_of_low (hres : cmdReserved w = false) (hlow : w.setWidth 4 = 0x4#4) : w = 0x04#8 := by
  revert w
  decide

/-- A command transmits with START when RS = 0, and without in Tx (R120). -/
theorem cmdDir_eq_tx_iff {start rs : Bool} {st : CState} :
    cmdDir start rs st = some .tx ↔ (start = true ∧ rs = false) ∨ (start = false ∧ st = .tx) := by
  cases start <;> cases rs <;> cases st <;> simp [cmdDir]

/-- An admitted word that uses an unwritten MTPR or MDR is refused as Unwritten (R120). -/
theorem acceptFault_unwritten (hres : cmdReserved w = false) (hmsa : cmdStartBit w = true → s.msa ≠ none)
    (hadm : admitted s.cstate (rsBit s.msa) (w.setWidth 4) = true) (hstop : ¬ (w.setWidth 4 = 0x4#4 ∧ s.cstate = .idle))
    (huse : s.mtpr = none ∨
      cmdRunBit w = true ∧ cmdDir (cmdStartBit w) (rsBit s.msa) s.cstate = some .tx ∧ s.mdr = none) :
    acceptFault w s = some .unwritten := by
  rw [acceptFault, if_neg (ne_true_of_eq_false hres), if_neg fun h => hmsa h.1 h.2, if_neg (by simp [hadm]), if_neg hstop]
  split
  · rfl
  next hclock => exact if_pos (huse.resolve_left hclock)

/-- Settles O20: the checks of R120 in their order, one clause each. -/
theorem commandFaultOrder : Obligations.CommandFaultOrder := by
  intro w s hq start rs transmits stopInIdle fault
  have hexec {f : Fault} : acceptFault w s = some f → fault f := hostCommand_faulted hq
  refine ⟨fun hres => hexec ?_, fun hres hstart hmsa => hexec ?_, fun hres hmsa hadm => hexec ?_,
    fun hres hmsa hadm hstop huse => hexec ?_⟩
  · exact if_pos (by simpa [cmdReserved] using hres)
  · rw [acceptFault, if_neg (by simp [cmdReserved, hres]), if_pos ⟨hstart, hmsa⟩]
  · exact acceptFault_illegal (cmdReserved_eq_false_iff.mpr hres) hmsa hadm
  · have hclear := cmdReserved_eq_false_iff.mpr hres
    refine acceptFault_unwritten hclear hmsa hadm (fun h => hstop ⟨eq_stop_of_low hclear h.1, h.2⟩) (huse.imp_right ?_)
    rintro ⟨⟨hrun, hdir⟩, hmdr⟩
    exact ⟨hrun, cmdDir_eq_tx_iff.mpr hdir, hmdr⟩

/-- Settles O26: each of the four words meets a cell of R121's table that shows no result. -/
theorem commandsIllegalOutsideTheirStates : Obligations.CommandsIllegalOutsideTheirStates := by
  intro s hq
  refine ⟨fun hst => ⟨?_, ?_⟩, fun hst => ?_, fun m hmsa hrs => ?_⟩
  · exact hostCommand_faulted (w := 0x01#8) hq (acceptFault_illegal rfl nofun (by rcases hst with h | h <;> simp [h]))
  · exact hostCommand_faulted (w := 0x05#8) hq (acceptFault_illegal rfl nofun (by rcases hst with h | h <;> simp [h]))
  · exact hostCommand_faulted (w := 0x09#8) hq (acceptFault_illegal rfl nofun (by simp [hst]))
  · exact hostCommand_faulted (w := 0x0B#8) hq (acceptFault_illegal rfl (fun _ => by simp [hmsa]) (by rw [hmsa]; exact hrs))

/-! ### The completion step as a whole (R122, R140) -/

/-- Settles O27: a completion step that does anything was not stalled. -/
theorem stallChangesNothing : Obligations.StallChangesNothing := by
  intro E s hstall
  rcases complete_cases E s with heq | ⟨-, hgo, -⟩
  · exact heq
  · exact absurd (hstall.symm.trans hgo) (by decide)

/-- The frame names every field but the nine a completion writes. -/
theorem CtlFrame.eq (f : CtlFrame s t) :
    t = { s with
      mdr := t.mdr, cstate := t.cstate, busy := t.busy, pend := t.pend, adrack := t.adrack, datack := t.datack,
      arblst := t.arblst, hb := t.hb, draws := t.draws } := by
  cases s
  cases t
  cases f
  simp_all

/-- Settles O28: the step changes nothing, or runs the command's phases in their frame. -/
theorem completionFrame : Obligations.CompletionFrame := by
  intro E s
  have hframe : CtlFrame s (complete E s) := by
    rcases complete_cases E s with heq | ⟨-, -, c, -, heq⟩ <;> rw [heq]
    · exact .refl s
    · exact frame_runCommand E c s
  exact hframe.eq

/-- An accepted command completes by its phases, unless the oracle stalls (R122, R140). -/
theorem complete_issued {start stop run ack : Bool} {dir : Option Dir} (hstall : E.oracle.stall s.hb = false) :
    complete E (issued w start stop run ack dir s) =
      runCommand E
        { start := start, stop := stop, run := run, ack := ack, dir := dir, origin := s.cstate, addr := s.msa, data := s.mdr }
        (issued w start stop run ack dir s) :=
  complete_running E _ _ rfl rfl hstall

/-! ### How a phase that fails ends the command (R128, R129) -/

/-- Without STOP the command ends in the state its phases leave, with STOP in Idle (R122, R127). -/
theorem endCommand_eq_settledAs (stop : Bool) (st : CState) (s : State) :
    endCommand stop st s = settledAs s (endState stop st) (endEvents stop) := by
  cases stop with
  | false => simp [endCommand, finishCommand, settledAs, endState, endEvents]
  | true => rfl

/-- A transmit that loses the bus sets ARBLST and leaves the bus Idle, with no STOP. -/
theorem lost_transmit (hdir : c.dir = some .tx) : lost E c a = { settledAs a .idle [] with arblst := true } := by
  simp [lost, hdir, finishCommand, settledAs]

/-- For a receive MDR is then unspecified. -/
theorem lost_receive (hdir : c.dir = some .rx) : sameButMdr (lost E c a) { settledAs a .idle [] with arblst := true } := by
  simp [lost, hdir, sameButMdr, unspecifyMdr, drawByte, draw, finishCommand, settledAs]

/-- A NACK of a transmit's address sets ADRACK. -/
theorem addressNacked_transmit (hdir : c.dir = some .tx) :
    addressNacked E c a = { settledAs a (endState c.stop .hold) (endEvents c.stop) with adrack := true } := by
  rw [addressNacked, if_neg (by simp [hdir]), endOnNack, endCommand_eq_settledAs]
  rfl

/-- For a receive MDR is then unspecified. -/
theorem addressNacked_receive (hdir : c.dir = some .rx) :
    sameButMdr (addressNacked E c a) { settledAs a (endState c.stop .hold) (endEvents c.stop) with adrack := true } := by
  rw [addressNacked, if_pos hdir, endOnNack, endCommand_eq_settledAs]
  exact ⟨rfl, Option.some_ne_none _⟩

/-! ### The data phase that is not acknowledged (R125, R126) -/

theorem dataPart_transmitNacked {b : Byte} (hdir : c.dir = some .tx) (hdata : c.data = some b)
    (hnack : E.oracle.tx a.hb b = .nack) :
    dataPart E c a = { settledAs a (endState c.stop .hold) (.tx b .nack :: endEvents c.stop) with datack := true } := by
  rw [dataPart, if_pos hdir, txPart, hdata, ← settledAs_emit]
  simp only [byteOrDraw, txPhase, hnack, endOnNack, endCommand_eq_settledAs]
  rfl

theorem dataPart_transmitLost {b : Byte} (hdir : c.dir = some .tx) (hdata : c.data = some b)
    (hlost : E.oracle.tx a.hb b = .arbLost) :
    dataPart E c a = { settledAs a .idle [.tx b .arbLost] with arblst := true } := by
  rw [dataPart, if_pos hdir, txPart, hdata, ← settledAs_emit]
  simp only [byteOrDraw, txPhase, hlost, lost_transmit hdir]

theorem dataPart_receiveLost (hdir : c.dir = some .rx) (hlost : E.oracle.rx a.hb (masterAck c.ack) = .arbLost) :
    sameButMdr (dataPart E c a) { settledAs a .idle [.rxLost] with arblst := true } := by
  rw [dataPart, if_neg (by simp [hdir]), rxPart, ← settledAs_emit]
  simp only [rxPhase, hlost, Bool.false_eq_true, if_false]
  exact lost_receive (a := emit .rxLost (unspecifyMdr E a)) hdir

/-! ### START and the address (R123, R124) -/

/-- The address byte after START or a repeated START, and the oracle's answer to it. -/
theorem addrPhase_startPhase {m : Byte} {x : Answer} {origin : CState}
    (hanswer : E.oracle.addr (a.hb ++ [startEvent origin]) m = x) :
    addrPhase E m (startPhase origin a) = (x, emit (.addr m x) (emit (startEvent origin) a)) := by
  have hemit : startPhase origin a = emit (startEvent origin) a := rfl
  rw [hemit, addrPhase, emit_hb, hanswer]

/-- An address that is not acknowledged ends the command with no data phase (R124, R128). -/
theorem runCommand_addressNacked {m : Byte} (hstart : c.start = true) (haddr : c.addr = some m)
    (hnack : E.oracle.addr (a.hb ++ [startEvent c.origin]) m = .nack) :
    runCommand E c a = addressNacked E c (emit (.addr m .nack) (emit (startEvent c.origin) a)) := by
  simp [runCommand, hstart, startPart, haddr, byteOrDraw, addrPhase_startPhase hnack]

/-- Arbitration lost at the address ends the command with no data phase (R124, R129). -/
theorem runCommand_addressLost {m : Byte} (hstart : c.start = true) (haddr : c.addr = some m)
    (hlost : E.oracle.addr (a.hb ++ [startEvent c.origin]) m = .arbLost) :
    runCommand E c a = lost E c (emit (.addr m .arbLost) (emit (startEvent c.origin) a)) := by
  simp [runCommand, hstart, startPart, haddr, byteOrDraw, addrPhase_startPhase hlost]

theorem gives_startEvent (O : Oracle) (h : List BusEvent) (st : CState) : Gives O h (startEvent st) := by
  unfold startEvent
  split <;> trivial

/-- An address that is acknowledged is followed by the data phase, on the history with both events (R124). -/
theorem runCommand_addressAcked {m : Byte} (hstart : c.start = true) (haddr : c.addr = some m)
    (hack : E.oracle.addr (a.hb ++ [startEvent c.origin]) m = .ack) :
    runCommand E c a = dataPart E c (emit (.addr m .ack) (emit (startEvent c.origin) a)) :=
  runCommand_start hstart haddr ⟨gives_startEvent _ _ _, hack, trivial⟩

/-! ### The commands with a data phase (R131, R132, R134 to R137) -/

/-- CMD_RUN and CMD_STOP_RUN in Tx (R131, R134). -/
theorem transmits_of_decode (hw : w = 0x01#8 ∨ w = 0x05#8) (hdecode : decode (.cmd w) = .ok i) :
    transmits i w (cmdStopBit w) := by
  intro E s b p hq hst hmdr hmtpr
  obtain ⟨hstart, hrun, hack⟩ : cmdStartBit w = false ∧ cmdRunBit w = true ∧ cmdAckBit w = false := by
    rcases hw with rfl | rfl <;> exact ⟨rfl, rfl, rfl⟩
  have haccept : acceptFault w s = none := by rcases hw with rfl | rfl <;> simp [acceptFault, hst, hmdr, hmtpr]
  refine ⟨?_, fun hstall => ?_⟩
  · rw [exec_of_decode_cmd hdecode, hostCommand_issued w hq hrun haccept, hstart, hack, hst]
    rfl
  · dsimp only
    rw [complete_issued hstall, runCommand_run rfl rfl]
    exact ⟨fun hanswer => dataPart_transmits rfl hmdr ⟨hanswer, trivial⟩,
      fun hanswer => dataPart_transmitNacked rfl hmdr hanswer, fun hanswer => dataPart_transmitLost rfl hmdr hanswer⟩

/-- CMD_RUN, CMD_STOP_RUN and CMD_RUN_ACK in Rx (R131, R134, R136). -/
theorem receives_of_decode (hw : w = 0x01#8 ∨ w = 0x05#8 ∨ w = 0x09#8) (hdecode : decode (.cmd w) = .ok i) :
    receives i w (cmdStopBit w) (cmdAckBit w) := by
  intro E s p hq hst hmtpr
  obtain ⟨hstart, hrun⟩ : cmdStartBit w = false ∧ cmdRunBit w = true := by
    rcases hw with rfl | rfl | rfl <;> exact ⟨rfl, rfl⟩
  have haccept : acceptFault w s = none := by
    rcases hw with rfl | rfl | rfl <;> simp [acceptFault, hst, hmtpr, cmdDir]
  refine ⟨?_, fun hstall => ?_⟩
  · rw [exec_of_decode_cmd hdecode, hostCommand_issued w hq hrun haccept, hstart, hst]
    rfl
  · dsimp only
    rw [complete_issued hstall, runCommand_run rfl rfl]
    exact ⟨fun v hbyte => dataPart_receives rfl ⟨hbyte, trivial⟩, fun hlost => dataPart_receiveLost rfl hlost⟩

/-- CMD_START_RUN and CMD_START_STOP_RUN with RS = 0 (R132, R135). -/
theorem startTransmits_of_decode (hw : w = 0x03#8 ∨ w = 0x07#8) (hdecode : decode (.cmd w) = .ok i) :
    startTransmits i w (cmdStopBit w) := by
  intro E s m b p hq hmsa hrs hmdr hmtpr
  have hrsBit : rsBit (some m) = false := hrs
  obtain ⟨hstart, hrun, hack⟩ : cmdStartBit w = true ∧ cmdRunBit w = true ∧ cmdAckBit w = false := by
    rcases hw with rfl | rfl <;> exact ⟨rfl, rfl, rfl⟩
  have haccept : acceptFault w s = none := by rcases hw with rfl | rfl <;> simp [acceptFault, hmsa, hmdr, hmtpr]
  refine ⟨?_, fun hstall => ?_⟩
  · rw [exec_of_decode_cmd hdecode, hostCommand_issued w hq hrun haccept, hstart, hack, hmsa, hrsBit]
    rfl
  · dsimp only
    rw [complete_issued hstall]
    refine ⟨fun hnack => ?_, fun hlost => ?_, fun haddr hanswer => ?_, fun haddr hanswer => ?_, fun haddr hanswer => ?_⟩
    · rw [runCommand_addressNacked rfl hmsa hnack, addressNacked_transmit rfl, settledAs_emit, settledAs_emit]
    · rw [runCommand_addressLost rfl hmsa hlost, lost_transmit rfl, settledAs_emit, settledAs_emit]
    · exact runCommand_startTransmits rfl hmsa rfl hmdr ⟨gives_startEvent _ _ _, haddr, hanswer, trivial⟩
    · rw [runCommand_addressAcked rfl hmsa haddr, dataPart_transmitNacked rfl hmdr hanswer, settledAs_emit, settledAs_emit]
    · rw [runCommand_addressAcked rfl hmsa haddr, dataPart_transmitLost rfl hmdr hanswer, settledAs_emit, settledAs_emit]

/-- The three commands with START and RS = 1, MDR written or not (R132, R135, R137). -/
theorem startReceives_of_decode (hw : w = 0x03#8 ∨ w = 0x07#8 ∨ w = 0x0B#8) (hdecode : decode (.cmd w) = .ok i) :
    startReceives i w (cmdStopBit w) (cmdAckBit w) := by
  intro E s m p hq hmsa hrs hmtpr
  have hrsBit : rsBit (some m) = true := hrs
  obtain ⟨hstart, hrun⟩ : cmdStartBit w = true ∧ cmdRunBit w = true := by
    rcases hw with rfl | rfl | rfl <;> exact ⟨rfl, rfl⟩
  have haccept : acceptFault w s = none := by
    rcases hw with rfl | rfl | rfl <;> simp [acceptFault, hmsa, hrsBit, hmtpr, cmdDir]
  refine ⟨?_, fun hstall => ?_⟩
  · rw [exec_of_decode_cmd hdecode, hostCommand_issued w hq hrun haccept, hstart, hmsa, hrsBit]
    rfl
  · dsimp only
    rw [complete_issued hstall]
    refine ⟨fun hnack => ?_, fun hlost => ?_, fun v haddr hbyte => ?_, fun haddr hlost => ?_⟩
    · rw [runCommand_addressNacked rfl hmsa hnack, ← settledAs_emit, ← settledAs_emit]
      exact addressNacked_receive rfl
    · rw [runCommand_addressLost rfl hmsa hlost, ← settledAs_emit, ← settledAs_emit]
      exact lost_receive rfl
    · exact runCommand_startReceives rfl hmsa rfl ⟨gives_startEvent _ _ _, haddr, hbyte, trivial⟩
    · rw [runCommand_addressAcked rfl hmsa haddr, ← settledAs_emit, ← settledAs_emit]
      exact dataPart_receiveLost rfl hlost

/-- Settles O21: in Tx the two commands differ in STOP alone. -/
theorem runAndStopRunTransmit : Obligations.RunAndStopRunTransmit :=
  ⟨transmits_of_decode (.inl rfl) rfl, transmits_of_decode (.inr rfl) rfl⟩

/-- Settles O22: in Rx the three commands differ in STOP and in the master's acknowledge alone. -/
theorem runCommandsReceive : Obligations.RunCommandsReceive :=
  ⟨receives_of_decode (.inl rfl) rfl, receives_of_decode (.inr (.inl rfl)) rfl, receives_of_decode (.inr (.inr rfl)) rfl⟩

/-- Settles O23: with RS = 0 the two commands differ in STOP alone. -/
theorem startCommandsTransmit : Obligations.StartCommandsTransmit :=
  ⟨startTransmits_of_decode (.inl rfl) rfl, startTransmits_of_decode (.inr rfl) rfl⟩

/-- Settles O24: with RS = 1 the three commands differ in STOP and in the master's acknowledge alone. -/
theorem startCommandsReceive : Obligations.StartCommandsReceive :=
  ⟨startReceives_of_decode (.inl rfl) rfl, startReceives_of_decode (.inr (.inl rfl)) rfl,
    startReceives_of_decode (.inr (.inr rfl)) rfl⟩

/-! ### CMD_STOP (R133) -/

/-- Without START the latched direction is that of the bus state (R120, log entry 26). -/
theorem cmdDir_without_start (rs : Bool) (st : CState) :
    cmdDir false rs st = if st = .tx then some .tx else if st = .rx then some .rx else none := by
  cases st <;> rfl

/-- A completed CMD_STOP releases the bus. -/
theorem runCommand_stop (hstart : c.start = false) (hrun : c.run = false) : runCommand E c a = settledAs a .idle [.stop] := by
  rw [runCommand, if_pos ⟨hstart, hrun⟩]
  rfl

/-- The host's issue of a CMD_STOP that no check refuses (R120, R133). -/
theorem exec_cmdStop (hq : quiet s) (hw : acceptFault 0x04#8 s = none) :
    exec .cmdStop s = .next (logAccess .host .wr .mcs 0x04#32 (acceptEffect 0x04#8 s)) := by
  obtain ⟨hidle, hb⟩ := hq
  exact hostWrite_done .mcs 0x04#32 s hidle rfl (by simpa [writeFault, hb] using hw)

/-- Settles O25: in Idle acceptance is all, where the bus is held the STOP is left to the completion. -/
theorem cmdStopReleasesTheBus : Obligations.CmdStopReleasesTheBus := by
  refine ⟨rfl, fun s hq hst => ?_, fun E s p hq hst hmtpr => ?_⟩
  · rw [exec_cmdStop hq (by simp [acceptFault, hst]), acceptEffect, if_pos ⟨rfl, hst⟩]
    rfl
  · refine ⟨?_, fun hstall => ?_⟩
    · rw [exec_cmdStop hq (by simp [acceptFault, hmtpr]), acceptEffect, if_neg fun h => hst h.2,
        ← cmdDir_without_start (rsBit s.msa)]
      rfl
    · rw [complete_issued hstall, runCommand_stop rfl rfl]

end Sys2Proof.Machine
end

section
/-!
PROOFS. A transaction ends on every oracle that never stalls, whatever it answers (41_bus_commands.md R140, 43_engine.md R171,
R181, R184): a bound on the rounds that are left at each position, which each round of the schedule `rounds` makes smaller or ends
the request.
-/

namespace Sys2Proof.Machine

variable {E : Env} {m : Nat} {r s t : State} {l : Label} {i : Nat}

/-! ### The rounds that are left -/

/-- The longest way from the end of the addressing phase (R190 to R193). INIT has none. -/
def payloadRounds (op : Op) (n : Nat) : Nat :=
  match op with
  | .init => 4
  | .writeOne => 4
  | .readOne => 5
  | .writeBurst => 4 * (n - 1) + 4
  | .readBurst => 4 * (n - 1) + 5

/-- The longest way from position `p` of a request of `n` bytes, with nothing in flight there: four rounds for each byte after the
first. ABORT has four left (R177), and every position whose poll may go there has more. -/
def positionRounds (op : Op) (n : Nat) (p : Pos) : Nat :=
  match p.label with
  | .i0 | .i1 => 1
  | .t0 => payloadRounds op n + 6
  | .a1 => payloadRounds op n + 5
  | .a2 => payloadRounds op n + 4
  | .a3 => payloadRounds op n + 3
  | .a4 => payloadRounds op n + 1
  | .abort => 4
  | .x1 => 3
  | .x2 => 1
  | .w1 | .b4 | .l1 | .s1 => 4
  | .w2 | .b5 => 3
  | .w3 | .b6 => 1
  | .r1 => 5
  | .r2 => 4
  | .r3 | .l2 | .s2 => 2
  | .r4 | .l3 | .s3 => 1
  | .b1 | .m1 => 4 * (n - p.i - 1) + 4
  | .b2 => 4 * (n - p.i - 1) + 3
  | .b3 | .m3 => 4 * (n - p.i - 1) + 1
  | .m2 => 4 * (n - p.i - 1) + 2
  | .q1 => 4 * (n - 1) + 5
  | .q2 => 4 * (n - 1) + 4
  | .q3 => 4 * (n - 2) + 6
  | .q4 => 4 * (n - 2) + 5

/-- The longest way from `s`: a command in flight is one round more. -/
def roundsLeft (s : State) : Nat := positionRounds s.op s.n s.epc + s.busy.toNat

theorem positionRounds_pos (op : Op) (n : Nat) (p : Pos) : 0 < positionRounds op n p := by
  unfold positionRounds
  split <;> omega

/-- An error path is shorter than any payload (R177). -/
theorem four_le_payloadRounds (op : Op) (n : Nat) : 4 ≤ payloadRounds op n := by
  unfold payloadRounds
  split <;> omega

/-! ### A step of the engine brings the end nearer -/

/-- From `s` to `t` the engine faulted, or finished, or came nearer to the end of its request with HE as it was. -/
def Nears (s t : State) : Prop := t.faults = s.faults → t.eact = true → t.he = s.he ∧ roundsLeft t < roundsLeft s

theorem nears_raise (f : Fault) (a : Agent) (what : Input) : Nears s (raise f a what s) := fun hf => by simp at hf

theorem nears_finishRequest (E : Env) (st : Status) (t : State) : Nears s (finishRequest E st t) := fun _ hact => by
  simp [finishRequest] at hact

/-- What of the state a step's access leaves, and the way that is left depends on. -/
def wayFields (s : State) := (s.op, s.n, s.epc, s.busy, s.he)

theorem wayFields_eq_iff :
    wayFields t = wayFields s ↔ t.op = s.op ∧ t.n = s.n ∧ t.epc = s.epc ∧ t.busy = s.busy ∧ t.he = s.he := by
  simp [wayFields]

/-- On to a position that is nearer. -/
theorem nears_goto (hb : s.busy = false) (hsame : wayFields t = wayFields s)
    (hlt : positionRounds s.op s.n ⟨l, i⟩ < positionRounds s.op s.n s.epc) : Nears s (goto l i t) := by
  obtain ⟨hop, hn, -, hbusy, hhe⟩ := wayFields_eq_iff.mp hsame
  intro _ _
  simpa [roundsLeft, hop, hn, hbusy, hb, hhe] using hlt

theorem nears_write {g : Reg} {b : Byte} {k : State → State} (hk : Nears s (k (written g b s))) :
    Nears s (engineWrite g b k s) := by
  rcases engineWrite_cases g b k s with ⟨f, -, h⟩ | ⟨-, h⟩ <;> rw [h]
  · exact nears_raise f _ _
  · exact hk

/-- A command's completion is a round of its own. -/
theorem nears_command {w : Byte} {e : EState} (hb : s.busy = false)
    (hlt : positionRounds s.op s.n ⟨l, i⟩ + 1 < positionRounds s.op s.n s.epc) : Nears s (engineCommand w e l i s) := by
  refine nears_write fun _ _ => ?_
  obtain ⟨-, -, hop, -, hn, -, -, -, -, -, -, -, -, -, hhe⟩ := writeEffect_frame .mcs w s
  have hone := Bool.toNat_le (writeEffect .mcs w s).busy
  refine ⟨hhe, ?_⟩
  simp only [roundsLeft, goto_op, goto_n, goto_epc, goto_busy, written, logAccess_op, logAccess_n, logAccess_busy, hop, hn, hb,
    Bool.toNat_false]
  omega

theorem nears_poll {k : State → State} (hb : s.busy = false) (hk : Nears s (k (polled E s))) : Nears s (poll E k s) := by
  rw [poll_idle E k s hb]
  exact hk

/-- After the poll of a command without STOP: to ABORT, or on. -/
theorem nears_pollErr {k : State → State} (hb : s.busy = false) (habort : 4 < positionRounds s.op s.n s.epc)
    (hk : Nears s (k (polled E s))) : Nears s (poll E (checkErr k) s) := by
  refine nears_poll hb ?_
  unfold checkErr
  split
  · exact nears_goto hb rfl habort
  · exact hk

theorem nears_read {g : Reg} {k : Byte → State → State} (hk : ∀ v t, wayFields t = wayFields s → Nears s (k v t)) :
    Nears s (engineRead E g k s) := by
  rcases engineRead_cases E g k s with ⟨f, -, h⟩ | ⟨-, h⟩ <;> rw [h]
  · exact nears_raise f _ _
  · exact hk _ _ rfl

theorem nears_readToBuf {j : Nat} {next : State → State} (hk : ∀ t, wayFields t = wayFields s → Nears s (next t)) :
    Nears s (readToBuf E j next s) :=
  nears_read fun _ _ hsame => hk _ hsame

theorem nears_writeBufByte {j : Nat} (hb : s.busy = false)
    (hlt : positionRounds s.op s.n ⟨l, i⟩ < positionRounds s.op s.n s.epc) : Nears s (writeBufByte E j l i s) := by
  unfold writeBufByte
  cases s.wbuf[j]? with
  | some v => exact nears_write (nears_goto hb rfl hlt)
  | none => exact nears_write (s := { s with draws := s.draws + 1 }) (k := goto l i) (nears_goto hb rfl hlt)

/-- After the addressing phase each operation has its payload left (R190 to R193). -/
theorem nears_afterAddressing (hop : s.op ≠ .init) (hb : s.busy = false) (hsame : wayFields t = wayFields s)
    (hlt : payloadRounds s.op s.n < positionRounds s.op s.n s.epc) : Nears s (afterAddressing t) := by
  have hs : t.op = s.op := congrArg Prod.fst hsame
  unfold afterAddressing
  cases ht : t.op with
  | init => exact absurd (hs.symm.trans ht) hop
  | writeOne | readOne | readBurst => exact nears_goto hb hsame (by rw [← hs, ht] at hlt ⊢; exact hlt)
  | writeBurst =>
    dsimp only
    split
    · exact nears_goto hb hsame (by rw [← hs, ht] at hlt ⊢; exact hlt)
    · exact nears_goto hb hsame ((four_le_payloadRounds _ _).trans_lt hlt)

/-- Each position by the block it is; a loop's position has a byte more to move (R195.4). -/
theorem RunsTxn.nears (h : RunsTxn m s) (hb : s.busy = false) : Nears s (Machine.engineAt E s) := by
  have hE := h.inv.engine h.active
  revert hE
  unfold EngineAtOk Machine.engineAt
  cases hl : s.epc.label with
  | i0 | i1 =>
    rintro ⟨hop, -⟩
    exact absurd hop h.txn
  | t0 =>
    intro _
    rw [stepT0, if_neg (ne_true_of_eq_false hb)]
    exact nears_goto hb rfl (by simp [positionRounds, hl])
  | a1 | a2 | w1 | r1 => exact fun _ => nears_write (nears_goto hb rfl (by simp [positionRounds, hl]))
  | a3 | x1 | w2 | r2 | b2 | b5 | m1 | l1 | s1 => exact fun _ => nears_command hb (by simp [positionRounds, hl])
  | a4 =>
    have hpay := four_le_payloadRounds s.op s.n
    have hleft : positionRounds s.op s.n s.epc = payloadRounds s.op s.n + 1 := by simp [positionRounds, hl]
    exact fun _ => nears_pollErr hb (by omega) (nears_afterAddressing h.txn hb rfl (by omega))
  | abort => exact fun _ => nears_goto hb rfl (by simp [positionRounds, hl])
  | x2 | w3 | b6 => exact fun _ => nears_poll hb (nears_finishRequest E _ _)
  | r3 =>
    refine fun _ => nears_poll hb ?_
    split
    · exact nears_finishRequest E _ _
    · exact nears_goto hb rfl (by simp [positionRounds, hl])
  | r4 => exact fun _ => nears_read fun _ _ _ => nears_finishRequest E _ _
  | b1 | b4 => exact fun _ => nears_writeBufByte hb (by simp [positionRounds, hl])
  | b3 =>
    rintro ⟨-, hn, -⟩
    refine nears_pollErr hb (by simp [positionRounds, hl]; omega) ?_
    split
    next hmore =>
      have hmore : s.epc.i + 2 < s.n := hmore
      exact nears_goto (i := s.epc.i + 1) hb rfl (by simp [positionRounds, hl]; omega)
    · exact nears_goto hb rfl (by simp [positionRounds, hl]; omega)
  | q1 =>
    refine fun _ => nears_write ?_
    split
    · exact nears_goto hb rfl (by simp [positionRounds, hl])
    · exact nears_goto hb rfl (by simp [positionRounds, hl])
  | q2 =>
    rintro ⟨-, hn, -⟩
    exact nears_command hb (by simp [positionRounds, hl]; omega)
  | q3 => exact fun _ => nears_pollErr hb (by simp [positionRounds, hl]) (nears_goto hb rfl (by simp [positionRounds, hl]))
  | q4 =>
    refine fun _ => nears_readToBuf fun t hsame => ?_
    split
    · exact nears_goto hb hsame (by simp [positionRounds, hl]; omega)
    · exact nears_goto hb hsame (by simp [positionRounds, hl])
  | m2 =>
    rintro ⟨-, hn, -⟩
    exact nears_pollErr hb (by simp [positionRounds, hl]; omega)
      (nears_goto hb rfl (by simp [positionRounds, hl, polled]))
  | m3 =>
    rintro ⟨-, hn, -⟩
    refine nears_readToBuf fun t hsame => ?_
    obtain ⟨-, hcount, hepc, -, -⟩ := wayFields_eq_iff.mp hsame
    rw [hepc, hcount]
    split
    · exact nears_goto hb hsame (by simp [positionRounds, hl]; omega)
    · exact nears_goto hb hsame (by simp [positionRounds, hl]; omega)
  | l2 | s2 => exact fun _ => nears_poll hb (nears_goto hb rfl (by simp [positionRounds, hl]))
  | l3 | s3 => exact fun _ => nears_readToBuf fun _ _ => nears_finishRequest E _ _

/-! ### A round brings the end nearer -/

/-- The request that stood in the latches at `r` runs at `s`, its entry in HE not yet made. -/
structure Underway (E : Env) (r s : State) : Prop where
  runs : RunsTxn E.maxBurst s
  unstopped : stopped .engine s = false
  request : latchedRequest s = latchedRequest r
  he : s.he = r.he

/-- The request that stood in the latches at `r` has its one entry in HE, and the block can take another (R171). -/
structure Ended (E : Env) (r t : State) : Prop where
  done : t.done = true
  entry : ∃ e : EngEvent, t.he = r.he ++ [e] ∧ e.request = latchedRequest r
  ready : readyToRun E t

theorem latchedRequest_of_kept (h : engineKept t = engineKept s) : latchedRequest t = latchedRequest s :=
  (congrArg latchedRequest h :)

theorem stopped_of_kept (h : engineKept t = engineKept s) : stopped .engine t = stopped .engine s :=
  (congrArg (stopped .engine) h :)

/-- The engine's step, which raises no fault. -/
theorem Underway.moves (k : Underway E r s) (hmove : TxnMoves E E.maxBurst s t) (hnear : Nears s t) :
    (Underway E r t ∧ roundsLeft t < roundsLeft s) ∨ Ended E r t := by
  have hinv := hmove.inv
  cases hmove with
  | moved _ hact hkept =>
    obtain ⟨hhe, hlt⟩ := hnear (congrArg State.faults hkept :) hact
    have hop : t.op = s.op := (congrArg State.op hkept :)
    exact .inl ⟨⟨⟨hinv, hact, hop ▸ k.runs.txn⟩, (stopped_of_kept hkept).trans k.unstopped,
      (latchedRequest_of_kept hkept).trans k.request, hhe.trans k.he⟩, hlt⟩
  | @finished u st _ hfree hidle hkept hhe =>
    obtain ⟨hinit, -⟩ := k.runs.inv.running k.runs.active
    have hmark : u.initDone = s.initDone := (congrArg State.initDone hkept :)
    rw [finishRequest_state] at hinv ⊢
    exact .inr ⟨rfl, ⟨_, congrArg (· ++ _) (hhe.trans k.he), (latchedRequest_of_kept hkept).trans k.request⟩,
      hinv, rfl, hfree, hidle, hmark.trans (hinit k.runs.isTxn), (stopped_of_kept hkept).trans k.unstopped⟩

/-- The completion of a command in flight, which is not stalled, leaves the engine where it waits (R122). -/
theorem Underway.completes (k : Underway E r s) (hb : s.busy = true) (hgo : E.oracle.stall s.hb = false) :
    Underway E r (complete E s) ∧ roundsLeft (complete E s) < roundsLeft s := by
  have hinv := k.runs.inv
  obtain ⟨c, hc⟩ := Option.isSome_iff_exists.mp (hinv.busyPend.symm.trans hb)
  have hsettled := settled_runCommand E c s (hinv.pendOk c hc)
  have f := frame_runCommand E c s
  have hnext := hinv.complete E
  rw [complete_running E s c hb hc hgo] at hnext ⊢
  refine ⟨⟨⟨hnext, f.eact.trans k.runs.active, f.op ▸ k.runs.txn⟩, ?_, ?_, f.he.trans k.he⟩, ?_⟩
  · rw [stopped, f.faults]
    exact k.unstopped
  · rw [← k.request]
    simp only [latchedRequest, f.op, f.sysclk, f.target, f.dev, f.reg, f.val, f.n, f.wbuf]
  · simp [roundsLeft, f.op, f.n, f.epc, hsettled.busy, hb]

/-- A round of the schedule (log entry 1). -/
theorem Underway.oneRound (k : Underway E r s) (hstall : ∀ h, E.oracle.stall h = false) :
    (Underway E r (oneRound E s) ∧ roundsLeft (oneRound E s) < roundsLeft s) ∨ Ended E r (oneRound E s) := by
  unfold Machine.oneRound
  split
  next hb => exact .inl (k.completes hb (hstall s.hb))
  next hb =>
    have hstep : engineStep E s = engineAt E s := if_pos ⟨k.runs.active, k.unstopped⟩
    rw [hstep]
    exact k.moves k.runs.engineAt (k.runs.nears (by simpa using hb))

/-! ### The end -/

/-- A block at rest stays as it is: its controller has nothing to complete, its engine no request. -/
theorem rounds_of_readyToRun (hready : readyToRun E t) (j : Nat) : rounds E j t = t := by
  obtain ⟨-, hidle, hfree, -⟩ := hready
  have hround : Machine.oneRound E t = t := by simp [Machine.oneRound, hfree, engineStep, hidle]
  induction j with
  | zero => rfl
  | succ j ih => rw [rounds, hround, ih]

/-- As many rounds as are left at most end the request. -/
theorem Underway.ends (hstall : ∀ h, E.oracle.stall h = false) {j : Nat} (k : Underway E r s) (hj : roundsLeft s ≤ j) :
    Ended E r (rounds E j s) := by
  induction j generalizing s with
  | zero =>
    have hpos := positionRounds_pos s.op s.n s.epc
    unfold roundsLeft at hj
    omega
  | succ j ih =>
    rw [rounds]
    rcases k.oneRound hstall with ⟨k1, hlt⟩ | hend
    · exact ih k1 (by omega)
    · rwa [rounds_of_readyToRun hend.ready]

theorem latchRequest_he (op : Op) (o : Operands) (s : State) : (latchRequest op o s).he = s.he := by cases op <;> rfl

variable {op : Op} {o : Operands}

/-- An accepted transaction with bytes to move is under way, with nothing yet in HE of it (R170). -/
theorem underway_acceptRequest (hready : readyToRun E s) (htxn : op ≠ .init) (hadmits : requestFault E op o s = none)
    (hn : ¬ (Op.isBurst op = true ∧ o.n = 0)) : Underway E (latchRequest op o s) (acceptRequest E op o s) := by
  have hstands := stands_acceptRequest hready htxn hn
  obtain ⟨hinv, -⟩ := hready
  obtain ⟨hop, -⟩ := acceptRequest_latches (E := E) (s := s) htxn hn
  refine ⟨⟨hinv.acceptRequest E op o hadmits, hstands.active, by rwa [hop]⟩, hstands.running, ?_, ?_⟩
  · rw [acceptRequest_running E op o s hn]
    rfl
  · rw [acceptRequest_running E op o s hn]

/-- It stands at T0, with the addressing phase and its payload left (R174). -/
theorem roundsLeft_acceptRequest (hready : readyToRun E s) (htxn : op ≠ .init) (hn : ¬ (Op.isBurst op = true ∧ o.n = 0)) :
    roundsLeft (acceptRequest E op o s) = payloadRounds op o.n + 6 := by
  have hstands := stands_acceptRequest hready htxn hn
  rw [roundsLeft, hstands.free, hstands.pos, acceptRequest_running E op o s hn]
  cases op with
  | init => exact absurd rfl htxn
  | writeOne | readOne | writeBurst | readBurst => rfl

/-- The rounds left at T0 are within the bound: of the four operations the reads meet it. -/
theorem payloadRounds_le {n : Nat} (hburst : Op.isBurst op = true → 1 ≤ n) :
    payloadRounds op n + 6 ≤ if Op.isBurst op then 4 * n + 7 else 11 := by
  cases op with
  | init | writeOne | readOne => simp [payloadRounds, Op.isBurst]
  | writeBurst | readBurst =>
    have hn := hburst rfl
    simp only [payloadRounds, Op.isBurst, if_true]
    omega

/-- Settles O51: the rounds left at T0 are within the bound, so by then the request has ended. -/
theorem acceptedTransactionEnds : Obligations.AcceptedTransactionEnds := by
  intro E s op o hready htxn hadmits hburst hstall
  have hop : op ≠ .init := by rintro rfl; cases htxn
  have hn : ¬ (Op.isBurst op = true ∧ o.n = 0) := by
    rintro ⟨hb, hzero⟩
    have hone := hburst hb
    omega
  have hbound : roundsLeft (acceptRequest E op o s) ≤ if Op.isBurst op then 4 * o.n + 7 else 11 := by
    rw [roundsLeft_acceptRequest hready hop hn]
    exact payloadRounds_le hburst
  obtain ⟨hdone, ⟨e, hhe, hrequest⟩, hrest⟩ := (underway_acceptRequest hready hop hadmits hn).ends hstall hbound
  exact ⟨hdone, ⟨e, by rw [hhe, latchRequest_he], hrequest⟩, hrest⟩

end Sys2Proof.Machine
end

section
/-!
PROOFS. The clock configuration (42_clock_config.md R160 to R164): the divisor's arithmetic and the legal range, INIT's two steps,
and what the whole request leaves.
-/

namespace Sys2Proof.Machine

/-! ### The divisor (R161, R162, R164) -/

section
variable {sysclk target : Int}

theorem divisor_eq (sysclk target : Int) : divisor sysclk target = sysclk / (20 * target) - 1 := rfl

/-- A lower bound of the divisor is one of sysclk. -/
theorem le_divisor_iff (htarget : 1 ≤ target) (k : Int) :
    k ≤ divisor sysclk target ↔ 20 * target * (k + 1) ≤ sysclk := by
  have hpos : 0 < 20 * target := by omega
  rw [divisor_eq, le_sub_iff_add_le, Int.le_ediv_iff_mul_le hpos, mul_comm]

/-- A strict upper bound of the divisor is one of sysclk. -/
theorem divisor_lt_iff (htarget : 1 ≤ target) (k : Int) :
    divisor sysclk target < k ↔ sysclk < 20 * target * (k + 1) := by
  rw [← not_le, le_divisor_iff htarget, not_le]

/-- Settles O35: the divisor is between itself and its successor. -/
theorem divisorFormula : Obligations.DivisorFormula := by
  intro sysclk target htarget
  refine ⟨rfl, (le_divisor_iff htarget _).mp le_rfl, ?_⟩
  have hlt := (divisor_lt_iff htarget _).mp (lt_add_one (divisor sysclk target))
  rwa [add_assoc, one_add_one_eq_two] at hlt

/-- The divisor is from 1 to 127 exactly when sysclk is at least 40 times and below 2580 times the target (R162). -/
theorem clockOk_iff :
    clockOk sysclk target = true ↔
      1 ≤ sysclk ∧ 1 ≤ target ∧ 40 * target ≤ sysclk ∧ sysclk < 2580 * target := by
  simp only [clockOk, Bool.and_eq_true, decide_eq_true_eq, and_assoc]
  refine and_congr_right fun _ => and_congr_right fun htarget => and_congr ?_ ?_
  · rw [le_divisor_iff htarget]
    omega
  · rw [← Int.lt_add_one_iff, divisor_lt_iff htarget]
    omega

/-- The bus clock's period, at the target, of the divisor INIT computes: sysclk rounded down to a multiple of 20 target. -/
theorem target_mul_sclPeriod (hok : clockOk sysclk target = true) :
    target * (sclPeriod (divisor sysclk target).toNat : Int) = 20 * target * (sysclk / (20 * target)) := by
  obtain ⟨-, htarget, hlow, -⟩ := clockOk_iff.mp hok
  have hnonneg : 0 ≤ divisor sysclk target := (le_divisor_iff htarget 0).mpr (by omega)
  have hperiod : (sclPeriod (divisor sysclk target).toNat : Int) = 20 * (divisor sysclk target + 1) := by
    simp [sclPeriod, Config.sclLp, Config.sclHp, Int.toNat_of_nonneg hnonneg]
  rw [hperiod, divisor_eq]
  ring

/-- Settles O37: sysclk rounded down to a multiple of 20 target is at most sysclk, and is sysclk exactly on a multiple. -/
theorem busClockNeverBelowTarget : Obligations.BusClockNeverBelowTarget := by
  intro sysclk target hok
  obtain ⟨-, htarget, -, -⟩ := clockOk_iff.mp hok
  rw [target_mul_sclPeriod hok]
  exact ⟨Int.mul_ediv_self_le (by omega), fun heq => ⟨_, heq.symm⟩, Int.mul_ediv_cancel'⟩

end

/-! ### INIT's two steps (R160) -/

variable {E : Env} {s : State}

theorem engineStep_running (hact : s.eact = true) (hrun : stopped .engine s = false) : engineStep E s = engineAt E s :=
  if_pos ⟨hact, hrun⟩

theorem engineAt_i0 (E : Env) (hpos : s.epc.label = .i0) : engineAt E s = stepI0 s := by
  rw [engineAt, hpos]

/-- Settles O36: I0's test is the range, so the two clauses are its two branches. -/
theorem clockRange : Obligations.ClockRange := by
  intro E s hact hrun hpos t
  have ht : t = stepI0 s := (engineStep_running hact hrun).trans (engineAt_i0 E hpos)
  rw [ht, stepI0]
  refine ⟨fun hrange => ?_, fun hout => ?_⟩
  · have hok := clockOk_iff.mpr hrange
    rw [if_pos hok]
    obtain ⟨-, htarget, hlow, hhigh⟩ := hrange
    exact ⟨(le_divisor_iff htarget 1).mpr (by omega), Int.lt_add_one_iff.mp ((divisor_lt_iff htarget _).mpr (by omega)),
      rfl, rfl⟩
  · rw [if_neg fun hok => ?_]
    have hrange := clockOk_iff.mp hok
    omega

/-- A legal divisor passes MTPR's own checks (R104). -/
theorem writeFault_mtpr_none {b : Byte} (hlegal : legalTpr b = true) (hfree : s.busy = false) (hidle : s.cstate = .idle) :
    writeFault .mtpr b s = none := by
  have hfields : ∀ b : Byte, legalTpr b = true → b[7] = false ∧ b.setWidth 7 ≠ 0#7 := by decide
  obtain ⟨hbit, htpr⟩ := hfields b hlegal
  simp [writeFault, hfree, hidle, hbit, htpr]

/-- While the bus is held a write of MTPR is refused, whatever the byte (R104). -/
theorem writeFault_mtpr_held (b : Byte) (hfree : s.busy = false) (hheld : s.cstate ≠ .idle) :
    writeFault .mtpr b s = some .configWhileActive := by
  simp [writeFault, hfree, hheld]

theorem stepI1_busy (E : Env) (hbusy : s.busy = true) : stepI1 E s = s := if_pos hbusy

theorem stepI1_held (E : Env) (hfree : s.busy = false) (hheld : s.cstate ≠ .idle) :
    stepI1 E s = raise .configWhileActive .engine (writeInput .mtpr (s.tpr.setWidth 32)) s := by
  rw [stepI1, if_neg (ne_true_of_eq_false hfree)]
  rcases engineWrite_cases .mtpr s.tpr (fun t => finishRequest E .ok { t with initDone := true }) s with
    ⟨f, hf, heq⟩ | ⟨hf, -⟩ <;> rw [writeFault_mtpr_held _ hfree hheld] at hf
  · rw [heq, Option.some.inj hf]
  · cases hf

theorem stepI1_done (E : Env) (hfree : s.busy = false) (hidle : s.cstate = .idle) (hlegal : legalTpr s.tpr = true) :
    stepI1 E s = finishRequest E .ok { written .mtpr s.tpr s with initDone := true } := by
  rw [stepI1, if_neg (ne_true_of_eq_false hfree), engineWrite_done _ _ _ _ (writeFault_mtpr_none hlegal hfree hidle)]
  rfl

/-! ### The whole request (R160, R163) -/

/-- What I0 leaves when the latched operands are in range: the divisor, for I1 to write. -/
def clockComputed (s : State) : State := goto .i1 0 { s with tpr := BitVec.ofInt 8 (divisor s.sysclk s.target) }

/-- What the INIT whose operands the latches hold leaves when it finishes OK (R160). -/
def clockProgrammed (s : State) : State :=
  let tpr := BitVec.ofInt 8 (divisor s.sysclk s.target)
  { s with
    tpr := tpr, mtpr := some tpr, initDone := true, status := .ok, done := true, eact := false, estate := .idle,
    epc := { label := .i1, i := 0 },
    hr := s.hr ++ [{ agent := .engine, kind := .wr, reg := .mtpr, value := tpr.setWidth 32 }],
    he := s.he ++ [{ request := .init s.sysclk s.target, result := .status .ok }] }

/-- With nothing in flight a round is the step at the position of a running engine. -/
theorem oneRound_running (hact : s.eact = true) (hrun : stopped .engine s = false) (hfree : s.busy = false) :
    oneRound E s = engineAt E s :=
  (if_neg (ne_true_of_eq_false hfree)).trans (engineStep_running hact hrun)

/-- INIT's two rounds, with nothing in flight and the bus released: I0, then I1. -/
theorem rounds_init (E : Env) (hact : s.eact = true) (hrun : stopped .engine s = false) (hfree : s.busy = false)
    (hidle : s.cstate = .idle) (hop : s.op = .init) (hpos : s.epc.label = .i0)
    (hok : clockOk s.sysclk s.target = true) : rounds E 2 s = clockProgrammed s := by
  have hi0 : oneRound E s = clockComputed s := by
    rw [oneRound_running hact hrun hfree, engineAt_i0 E hpos, stepI0, if_pos hok, clockComputed]
  have hi1 : oneRound E (clockComputed s) = stepI1 E (clockComputed s) := by
    rw [oneRound_running (s := clockComputed s) hact hrun hfree, engineAt_i1 E _ rfl]
  calc rounds E 2 s = oneRound E (oneRound E s) := rfl
    _ = stepI1 E (clockComputed s) := by rw [hi0, hi1]
    _ = finishRequest E .ok { written .mtpr (clockComputed s).tpr (clockComputed s) with initDone := true } :=
      stepI1_done E hfree hidle (legalTpr_divisor _ _ hok)
    _ = clockProgrammed s := by
      rw [finishRequest_state, finishResult_ok]
      simp [finishResult, latchedRequest, written, writeEffect, logAccess, clockProgrammed, clockComputed, goto, hop]

/-- Acceptance of INIT (R170). -/
theorem acceptRequest_init (E : Env) (sysclk target : Int) (s : State) :
    acceptRequest E .init { sysclk := sysclk, target := target } s = { s with
      op := .init, sysclk := sysclk, target := target, eact := true, done := false, estate := .idle,
      epc := { label := .i0, i := 0 } } :=
  rfl

/-- An idle engine is all R170 asks of INIT. -/
theorem requestFault_init (E : Env) (sysclk target : Int) (hidle : s.eact = false) :
    requestFault E .init { sysclk := sysclk, target := target } s = none := by
  simp [requestFault, hidle, operandsBad, Op.isTxn, Op.isBurst]

/-- Settles O38: acceptance by R170's checks, the two rounds, and the two other ways out of I1. -/
theorem initProgramsTheClock : Obligations.InitProgramsTheClock := by
  refine ⟨fun sysclk target s hidle => ⟨0, ?_⟩, fun E s hact hrun hfree hidle hop hpos hok => ?_,
    fun E s hact hrun hpos => ?_⟩
  · have haccept : exec (.init sysclk target) s = hostRequest Config.env .init { sysclk := sysclk, target := target } s := rfl
    rw [haccept, hostRequest, requestFault_init _ _ _ hidle, acceptRequest_init]
  · intro tpr t
    have ht : t = clockProgrammed s := rounds_init E hact hrun hfree hidle hop hpos hok
    rw [ht]
    rfl
  · rw [engineStep_running hact hrun, engineAt_i1 E s hpos]
    exact ⟨stepI1_busy E, stepI1_held E⟩

/-- An accepted INIT with legal operands, two rounds later. -/
theorem rounds_acceptRequest_init (E : Env) {sysclk target : Int} (hrun : stopped .engine s = false) (hfree : s.busy = false)
    (hidle : s.cstate = .idle) (hok : clockOk sysclk target = true) :
    rounds E 2 (acceptRequest E .init { sysclk := sysclk, target := target } s) =
      clockProgrammed (acceptRequest E .init { sysclk := sysclk, target := target } s) :=
  rounds_init E rfl hrun hfree hidle rfl rfl hok

/-- Settles O39: what INIT leaves is a function of its operands in all but the histories. -/
theorem initIsIdempotent : Obligations.InitIsIdempotent := by
  intro E s sysclk target _ hrun hfree hidle hok request once twice
  have honce : once = clockProgrammed (request s) := rounds_acceptRequest_init E hrun hfree hidle hok
  have htwice : twice = clockProgrammed (request once) := by
    refine rounds_acceptRequest_init E ?_ ?_ ?_ hok <;> rw [honce]
    exacts [hrun, hfree, hidle]
  rw [htwice, honce]
  rfl

end Sys2Proof.Machine
end

section
/-!
PROOFS. Requests at acceptance (43_engine.md R170, R171): the order of their faults, what an admitted transaction latches, and a
burst of count zero. Also the engine's error test (R173), and where it holds while a command is in flight (R172, R174).
-/

namespace Sys2Proof.Machine

variable {E : Env} {op : Op} {o : Operands} {s : State}

/-! ### The error test (R173) -/

/-- Settles O44: the mask 0x12 is bits 1 and 4, and on a polled status word the test is ERROR. -/
theorem errorTest : Obligations.ErrorTest :=
  ⟨fun b => ⟨err_eq_bits b, bne_iff_ne⟩, err_statusWord⟩

/-! ### Holding while BUSY is set (R160, R172, R174) -/

theorem stepT0_busy (hbusy : s.busy = true) : stepT0 s = s := if_pos hbusy

/-- Settles O45: the entry guard, I1 and the polls each test BUSY before anything else. -/
theorem engineHoldsWhileBusy : Obligations.EngineHoldsWhileBusy := by
  intro E s hbusy hpos
  have hhold : engineAt E s = s := by
    rcases hpos with h | h | h | h | h | h | h | h | h | h | h | h <;> rw [engineAt, h]
    case inl => exact stepT0_busy hbusy
    case inr.inl => exact stepI1_busy E hbusy
    all_goals exact poll_busy E _ s hbusy
  rw [engineStep, hhold, ite_self]

/-! ### The checks of a transaction (R170) -/

theorem hostRequest_faulted {f : Fault} (h : requestFault E op o s = some f) :
    hostRequest E op o s = .next (raise f .host (reqInput op o) s) := by
  rw [hostRequest, h]

theorem hostRequest_accepted (h : requestFault E op o s = none) :
    hostRequest E op o s = .next (acceptRequest E op o s) := by
  rw [hostRequest, h]

/-- EngineBusy is the first check of every request. -/
theorem requestFault_running (hact : s.eact = true) : requestFault E op o s = some .engineBusy := if_pos hact

theorem requestFault_unfit (hidle : s.eact = false) (hbad : operandsBad E.maxBurst op o = true) :
    requestFault E op o s = some .badOperand := by
  simp [requestFault, hidle, hbad]

theorem requestFault_uninitialised (hidle : s.eact = false) (hok : ¬ operandsBad E.maxBurst op o = true)
    (htxn : Op.isTxn op = true) (hinit : s.initDone = false) : requestFault E op o s = some .notInitialised := by
  simp [requestFault, hidle, hok, htxn, hinit]

/-- A transaction that fails a check takes the fault of the first it fails; `bad` is what BadOperand means for it. -/
theorem requestFault_txn_some {bad : Prop} [Decidable bad] (htxn : Op.isTxn op = true)
    (hbad : operandsBad E.maxBurst op o = true ↔ bad) (h : s.eact = true ∨ bad ∨ s.initDone = false) :
    requestFault E op o s =
      some (if s.eact then .engineBusy else if bad then .badOperand else .notInitialised) := by
  by_cases hact : s.eact = true
  · rw [if_pos hact, requestFault_running hact]
  have hidle : s.eact = false := eq_false_of_ne_true hact
  by_cases hb : bad
  · rw [if_neg hact, if_pos hb, requestFault_unfit hidle (hbad.mpr hb)]
  · have hinit : s.initDone = false := (h.resolve_left hact).resolve_left hb
    rw [if_neg hact, if_neg hb, requestFault_uninitialised hidle (mt hbad.mp hb) htxn hinit]

/-- An initialised, idle engine admits every transaction whose operands fit. -/
theorem requestFault_fits {bad : Prop} (hidle : s.eact = false) (hinit : s.initDone = true)
    (hbad : operandsBad E.maxBurst op o = true ↔ bad) (hfits : ¬ bad) : requestFault E op o s = none := by
  have hok : ¬ operandsBad E.maxBurst op o = true := mt hbad.mp hfits
  simp [requestFault, hidle, hinit, hok]

/-! BadOperand for each of the four. -/

theorem operandsBad_writeOne (m dev reg val : Nat) :
    operandsBad m .writeOne { dev := dev, reg := reg, val := val } = true ↔ 0x7F < dev ∨ 0xFF < reg ∨ 0xFF < val := by
  simp [operandsBad, Op.isTxn, Op.isBurst, or_assoc]

theorem operandsBad_readOne (m dev reg : Nat) :
    operandsBad m .readOne { dev := dev, reg := reg } = true ↔ 0x7F < dev ∨ 0xFF < reg := by
  simp [operandsBad, Op.isTxn, Op.isBurst]

theorem operandsBad_writeBurst (m dev reg n : Nat) (wbuf : List Nat) :
    operandsBad m .writeBurst { dev := dev, reg := reg, n := n, wbuf := wbuf } = true ↔
      0x7F < dev ∨ 0xFF < reg ∨ m < n ∨ wbuf.length ≠ n ∨ ∃ b ∈ wbuf, 0xFF < b := by
  simp [operandsBad, Op.isTxn, Op.isBurst, or_assoc]

theorem operandsBad_readBurst (m dev reg n : Nat) :
    operandsBad m .readBurst { dev := dev, reg := reg, n := n } = true ↔ 0x7F < dev ∨ 0xFF < reg ∨ m < n := by
  simp [operandsBad, Op.isTxn, Op.isBurst, or_assoc]

/-- Settles O40: INIT by its first check, each transaction by the first check it fails. -/
theorem requestFaultOrder : Obligations.RequestFaultOrder := by
  refine fun s => ⟨fun sysclk target hact => hostRequest_faulted (requestFault_running hact), fun dev reg val h => ?_,
    fun dev reg h => ?_, fun dev reg n wbuf h => ?_, fun dev reg n h => ?_⟩
  · exact hostRequest_faulted (requestFault_txn_some rfl (operandsBad_writeOne _ dev reg val) h)
  · exact hostRequest_faulted (requestFault_txn_some rfl (operandsBad_readOne _ dev reg) h)
  · have hiff := operandsBad_writeBurst Config.maxBurst dev reg n wbuf
    refine ⟨fun hact => hostRequest_faulted (requestFault_running hact),
      fun hidle hbad => hostRequest_faulted (requestFault_unfit hidle (hiff.mpr hbad)), fun hidle hfits => ?_⟩
    have hinit : s.initDone = false := (h.resolve_left (ne_true_of_eq_false hidle)).resolve_left hfits
    exact hostRequest_faulted (requestFault_uninitialised hidle (mt hiff.mp hfits) rfl hinit)
  · exact hostRequest_faulted (requestFault_txn_some rfl (operandsBad_readBurst _ dev reg n) h)

/-! ### Acceptance of operands that fit (R170, R171) -/

/-- An admitted transaction with a byte to move latches its operands and starts at the entry guard. -/
theorem hostRequest_starts (h : requestFault E op o s = none) (hop : op ≠ .init)
    (hn : ¬ (Op.isBurst op = true ∧ o.n = 0)) :
    hostRequest E op o s = .next { latchRequest op o s with
      eact := true, done := false, estate := .idle, epc := { label := .t0, i := 0 } } := by
  rw [hostRequest_accepted h, acceptRequest_running E op o s hn, if_neg hop]

/-- An admitted burst of count zero latches its operands and finishes OK in the same step. -/
theorem hostRequest_zero (h : requestFault E op o s = none) (hburst : Op.isBurst op = true) (hn : o.n = 0) :
    hostRequest E op o s =
      .next (finishRequest E .ok { latchRequest op o s with eact := true, done := false, estate := .idle }) := by
  rw [hostRequest_accepted h, acceptRequest, if_pos ⟨hburst, hn⟩]

/-! The latches hold operands that fit as they were given. -/

theorem latchRequest_writeOne (dev : DevAddr) (reg val : Byte) (s : State) :
    latchRequest .writeOne { dev := dev.toNat, reg := reg.toNat, val := val.toNat } s =
      { s with op := .writeOne, dev := dev, reg := reg, val := val } := by
  simp [latchRequest]

theorem latchRequest_readOne (dev : DevAddr) (reg : Byte) (s : State) :
    latchRequest .readOne { dev := dev.toNat, reg := reg.toNat } s = { s with op := .readOne, dev := dev, reg := reg } := by
  simp [latchRequest]

theorem latchRequest_writeOperands (dev : DevAddr) (reg : Byte) (bytes : List Byte) (s : State) :
    latchRequest .writeBurst (writeOperands dev reg bytes) s =
      { s with op := .writeBurst, dev := dev, reg := reg, n := bytes.length, wbuf := bytes } := by
  simp [latchRequest, writeOperands, Function.comp_def]

theorem latchRequest_readOperands (dev : DevAddr) (reg : Byte) (n : Nat) (s : State) :
    latchRequest .readBurst (readOperands dev reg n) s =
      { s with op := .readBurst, dev := dev, reg := reg, n := n } := by
  simp [latchRequest, readOperands]

section
variable (dev : DevAddr) (reg : Byte) (hidle : s.eact = false) (hinit : s.initDone = true)
include hidle hinit

/-- Bytes are in range: a burst write of at most MAX_BURST of them is admitted. -/
theorem requestFault_writeBytes (bytes : List Byte) (hmax : bytes.length ≤ E.maxBurst) :
    requestFault E .writeBurst (writeOperands dev reg bytes) s = none := by
  refine requestFault_fits hidle hinit (operandsBad_writeBurst _ _ _ _ _) ?_
  rintro (hdev | hreg | hn | hlen | ⟨b, hb, hbyte⟩)
  · omega
  · omega
  · omega
  · exact hlen (List.length_map _)
  · obtain ⟨v, -, rfl⟩ := List.mem_map.mp hb
    omega

/-- A burst read of at most MAX_BURST bytes is admitted. -/
theorem requestFault_readBytes (n : Nat) (hmax : n ≤ E.maxBurst) :
    requestFault E .readBurst (readOperands dev reg n) s = none :=
  requestFault_fits hidle hinit (operandsBad_readBurst _ _ _ _) (by omega)

end

/-- Settles O41: operands of 7 and 8 bits are in range, and the latches hold them. -/
theorem singleByteRequestsAccepted : Obligations.SingleByteRequestsAccepted := by
  refine fun dev reg val s hidle hinit => ⟨⟨0, ?_⟩, ⟨0, ?_⟩⟩
  · have hfits := requestFault_fits (E := Config.env) hidle hinit
      (operandsBad_writeOne _ dev.toNat reg.toNat val.toNat) (by omega)
    exact (hostRequest_starts hfits nofun fun hz => nomatch hz.1).trans (by rw [latchRequest_writeOne])
  · have hfits := requestFault_fits (E := Config.env) hidle hinit (operandsBad_readOne _ dev.toNat reg.toNat) (by omega)
    exact (hostRequest_starts hfits nofun fun hz => nomatch hz.1).trans (by rw [latchRequest_readOne])

/-- Settles O42: a count from 1 to MAX_BURST is in range and no burst of count zero. -/
theorem burstRequestsAccepted : Obligations.BurstRequestsAccepted := by
  intro dev reg bytes s hidle hinit hpos hmax
  have hn : bytes.length ≠ 0 := by omega
  refine ⟨⟨0, ?_⟩, ⟨0, ?_⟩⟩
  · have hfits : requestFault Config.env _ _ s = none := requestFault_writeBytes dev reg hidle hinit bytes hmax
    exact (hostRequest_starts hfits nofun fun hz => hn hz.2).trans (by rw [latchRequest_writeOperands])
  · have hfits : requestFault Config.env _ _ s = none := requestFault_readBytes dev reg hidle hinit bytes.length hmax
    exact (hostRequest_starts hfits nofun fun hz => hn hz.2).trans (by rw [latchRequest_readOperands])

/-- Settles O43: count zero is in range, and finishing OK draws nothing. -/
theorem countZeroBurstsFinishAtOnce : Obligations.CountZeroBurstsFinishAtOnce := by
  intro dev reg s hidle hinit
  constructor
  · have hfits : requestFault Config.env _ _ s = none := requestFault_writeBytes dev reg hidle hinit [] (Nat.zero_le _)
    refine (hostRequest_zero hfits rfl rfl).trans ?_
    rw [latchRequest_writeOperands]
    rfl
  · have hfits : requestFault Config.env _ _ s = none := requestFault_readBytes dev reg hidle hinit 0 (Nat.zero_le _)
    refine (hostRequest_zero hfits rfl rfl).trans ?_
    rw [latchRequest_readOperands]
    rfl

end Sys2Proof.Machine
end

section
/-!
PROOFS. What a transaction's step says of its end and of faults (43_engine.md R171, 44_transactions.md R195.1, R195.4), and the
legacy projection (R194).
-/

namespace Sys2Proof.Machine

variable {E : Env} {m : Nat} {s t : State}

/-- A transaction's step keeps the kept part, whether it goes on or finishes. -/
theorem TxnMoves.kept (h : TxnMoves E m s t) : engineKept t = engineKept s := by
  cases h with
  | moved _ _ hkept => exact hkept
  | finished st _ _ _ hkept => exact (engineKept_finishRequest E st _).trans hkept

/-- A running transaction's engine moves unless it has faulted (R179, R214). -/
theorem RunsTxn.engineStep_cases (h : RunsTxn m s) (E : Env) :
    engineStep E s = s ∨ TxnMoves E m s (engineStep E s) := by
  unfold engineStep
  split
  · exact .inr h.engineAt
  · exact .inl rfl

/-- Settles O55: the fault record is in the part that a transaction's step keeps, and an idle engine has no step. -/
theorem transactionsNeverFault : Obligations.TransactionsNeverFault := by
  intro E s hinv hop
  by_cases hact : s.eact = true
  · rcases RunsTxn.engineStep_cases ⟨hinv, hact, hop⟩ E with h | h
    · rw [h]
    · exact (congrArg State.faults h.kept :)
  · rw [engineStep, if_neg fun h => hact h.1]

/-- Settles O56: a step that ends the request is the finishing of it, which the transaction reaches with the bus released. -/
theorem finishedTransactionLeavesTheBusIdle : Obligations.FinishedTransactionLeavesTheBusIdle := by
  intro E s hinv hop hact hended
  dsimp only
  rcases RunsTxn.engineStep_cases ⟨hinv, hact, hop⟩ E with h | h
  · rw [h, hact] at hended
    cases hended
  generalize engineStep E s = t at h hended
  cases h with
  | moved _ hgoes =>
    rw [hgoes] at hended
    cases hended
  | @finished u st hbase hfree hidle hkept hhe =>
    rw [finishRequest_state]
    exact ⟨hfree, hbase.pend_none hfree, hidle, rfl, rfl, _, congrArg (· ++ _) hhe, latchedRequest_of_kept hkept⟩

/-- Settles O52: the projection gives 0xFF for every failure, and the byte itself otherwise. -/
theorem legacyProjectionIsNotInjective : Obligations.LegacyProjectionIsNotInjective :=
  fun _ => ⟨rfl, fun _ => rfl⟩

end Sys2Proof.Machine
end

section
/-!
PROOFS. The clean traces of the four primitives on a bus that acknowledges (20_memory.md R62, 43_engine.md R176, 44_transactions.md
R190 to R193), and a byte written to the reference device and read back (41_bus_commands.md R142, 95_test_vectors.md P1).
-/

namespace Sys2Proof.Machine

variable {E : Env} {r s : State} {h : List BusEvent} {ws : List Byte}

/-! ### WRITE_ONE (R190) -/

theorem Stands.val {p : Pos} {st : CState} (k : Stands r p st h ws s) : s.val = r.val := (congrArg State.val k.kept :)

/-- W1 to W3: four rounds send the byte and finish the request. -/
theorem Stands.sendsValue (k : Stands r ⟨.w1, 0⟩ .tx h ws s) (hstall : ∀ h, E.oracle.stall h = false)
    (hop : r.op = .writeOne) (hplay : Plays E.oracle h [.tx r.val .ack]) :
    Finished r (h ++ [.tx r.val .ack, .stop]) (ws ++ [0x05#8]) (.status .ok) (rounds E 4 s) := by
  obtain ⟨hmdr, k1⟩ := k.writes (E := E) (b := r.val) (.inr rfl) (by rw [engineAt, k.pos, ← k.val]; rfl)
  obtain ⟨t, hsent, kt⟩ := (k1.jump .w2 0).transmits (.inr rfl)
    ⟨⟨_, rfl⟩, fun t ht => by rw [engineAt, ht]; rfl⟩ (hstall h) rfl hplay
  have hnext : rounds E 4 s = finishByErr E t := by
    have hfour : rounds E 4 s = rounds E 3 (rounds E 1 s) := rfl
    rw [hfour, hmdr, hsent]
  rw [hnext]
  exact kt.toStands.finishes kt.noError (by simp [finishResult, kt.toStands.op, hop])

/-- The operands of WRITE_ONE (R190). -/
def writeOneOperands (dev : DevAddr) (reg val : Byte) : Operands := { dev := dev.toNat, reg := reg.toNat, val := val.toNat }

/-- WRITE_ONE on a bus that plays its clean trace (R190, R62). -/
theorem writeOne_clean {dev : DevAddr} {reg val : Byte} (hready : readyToRun E s) (hstall : ∀ h, E.oracle.stall h = false)
    (hplay : Plays E.oracle s.hb (writeTrace dev reg [val])) :
    Finished (acceptRequest E .writeOne (writeOneOperands dev reg val) s) (s.hb ++ writeTrace dev reg [val])
      (engineCommands s ++ [0x03#8, 0x05#8]) (.status .ok)
      (rounds E 10 (acceptRequest E .writeOne (writeOneOperands dev reg val) s)) := by
  have hval : (acceptRequest E .writeOne (writeOneOperands dev reg val) s).val = val := by
    rw [acceptRequest_running E .writeOne _ s nofun, writeOneOperands, latchRequest_writeOne]
  obtain ⟨haddr, hpay⟩ := (plays_append _ _ (addressTrace dev reg) (payloadTrace [val])).mp hplay
  obtain ⟨t, hsix, hop, -, kt⟩ := addresses_acceptRequest (op := .writeOne) (o := writeOneOperands dev reg val) hready
    (by decide) nofun hstall (by simpa [writeOneOperands] using haddr)
  obtain ⟨hbyte, -⟩ := (plays_append _ _ [.tx val .ack] [.stop]).mp hpay
  have hnext : rounds E 6 (acceptRequest E .writeOne (writeOneOperands dev reg val) s) = goto .w1 0 t := by
    rw [hsix, afterAddressing, hop]
  have hsent := (kt.jump .w1 0).sendsValue hstall (kt.op.symm.trans hop)
    (by rw [hval]; simpa [writeOneOperands] using hbyte)
  rw [hval] at hsent
  rw [rounds_add 6 4, hnext]
  simpa [writeTrace, payloadTrace, writeOneOperands] using hsent

/-! ### READ_ONE (R191) -/

/-- R1 to R4: five rounds receive the byte and finish the request. -/
theorem Stands.receivesValue {v : Byte} (k : Stands r ⟨.r1, 0⟩ .tx h ws s) (hstall : ∀ h, E.oracle.stall h = false)
    (hop : r.op = .readOne) (hplay : Plays E.oracle h [.rstart, .addr (saByte r.dev true) .ack, .rx v .nack]) :
    Finished r (h ++ [.rstart, .addr (saByte r.dev true) .ack, .rx v .nack, .stop]) (ws ++ [0x07#8]) (.byte .ok v)
      (rounds E 5 s) := by
  obtain ⟨hmsa, k1⟩ := k.writes (E := E) (b := saByte r.dev true) (.inl rfl) (by rw [engineAt, k.pos, ← k.dev]; rfl)
  obtain ⟨t, hsent, kt⟩ := (k1.jump .r2 0).startReceives (.inl rfl)
    ⟨⟨_, rfl⟩, fun t ht => by rw [engineAt, ht]; rfl⟩ (hstall h) rfl (rsBit_saByte _ _) hplay
  have kread := kt.toStands.jump .r4 0
  have hread : rounds E 1 (goto .r4 0 t) = stepR4 E (goto .r4 0 t) := kread.round
  have hnext : rounds E 5 s = rounds E 1 (goto .r4 0 t) := by
    have hfive : rounds E 5 s = rounds E 1 (rounds E 3 (rounds E 1 s)) := rfl
    rw [hfive, hmsa, hsent, if_neg (ne_true_of_eq_false kt.noError)]
  rw [hnext, hread, stepR4, engineRead_mdr E _ _ v kread.free kt.mdr, finishRequest_state]
  exact ⟨kt.kept, rfl, kt.free, by rw [← kt.commands]; simp [engineCommands],
    by simp [hostResult, finishResult, kt.toStands.op, hop]⟩

/-- The operands of READ_ONE (R191). -/
def readOneOperands (dev : DevAddr) (reg : Byte) : Operands := { dev := dev.toNat, reg := reg.toNat }

/-- READ_ONE on a bus that plays its clean trace (R191, R62). -/
theorem readOne_clean {dev : DevAddr} {reg v : Byte} (hready : readyToRun E s) (hstall : ∀ h, E.oracle.stall h = false)
    (hplay : Plays E.oracle s.hb (readTrace dev reg [] v)) :
    Finished (acceptRequest E .readOne (readOneOperands dev reg) s) (s.hb ++ readTrace dev reg [] v)
      (engineCommands s ++ [0x03#8, 0x07#8]) (.byte .ok v)
      (rounds E 11 (acceptRequest E .readOne (readOneOperands dev reg) s)) := by
  obtain ⟨-, hlatched, -, -⟩ := acceptRequest_latches (E := E) (s := s) (op := .readOne) (o := readOneOperands dev reg)
    (by decide) nofun
  have hdev : (acceptRequest E .readOne (readOneOperands dev reg) s).dev = dev := by
    rw [hlatched, readOneOperands, BitVec.ofNat_toNat, BitVec.setWidth_eq]
  obtain ⟨haddr, hrest⟩ := (plays_append _ _ (addressTrace dev reg) _).mp hplay
  obtain ⟨t, hsix, hop, -, kt⟩ := addresses_acceptRequest (op := .readOne) (o := readOneOperands dev reg) hready
    (by decide) nofun hstall (by simpa [readOneOperands] using haddr)
  obtain ⟨hbyte, -⟩ := (plays_append _ _ [.rstart, .addr (saByte dev true) .ack, .rx v .nack] [.stop]).mp hrest
  have hnext : rounds E 6 (acceptRequest E .readOne (readOneOperands dev reg) s) = goto .r1 0 t := by
    rw [hsix, afterAddressing, hop]
  have hreceived := (kt.jump .r1 0).receivesValue hstall (kt.op.symm.trans hop)
    (by rw [hdev]; simpa [readOneOperands] using hbyte)
  rw [hdev] at hreceived
  rw [rounds_add 6 5, hnext]
  simpa [readTrace, receiveTrace, readOneOperands] using hreceived

/-! ### A bus that acknowledges every address and byte -/

section
variable {O : Oracle} (haddr : ∀ h b, O.addr h b = .ack) (htx : ∀ h b, O.tx h b = .ack) (dev : DevAddr) (reg : Byte)
include haddr htx

theorem plays_addressTrace_of_acks (h : List BusEvent) : Plays O h (addressTrace dev reg) :=
  ⟨trivial, haddr _ _, htx _ _, trivial⟩

/-- It plays every write. -/
theorem plays_writeTrace_of_acks (h : List BusEvent) (bytes : List Byte) : Plays O h (writeTrace dev reg bytes) := by
  refine (plays_append _ _ _ _).mpr ⟨plays_addressTrace_of_acks haddr htx dev reg h, ?_⟩
  generalize h ++ addressTrace dev reg = h
  induction bytes generalizing h with
  | nil => exact ⟨trivial, trivial⟩
  | cons b bs ih => exact ⟨htx h b, ih _⟩

/-- It plays a read of the bytes it gives. -/
theorem plays_readTrace_of_acks {h : List BusEvent} {body : List Byte} {last : Byte}
    (hbytes : Plays O (h ++ addressTrace dev reg ++ [.rstart] ++ [.addr (saByte dev true) .ack]) (receiveTrace body last)) :
    Plays O h (readTrace dev reg body last) :=
  (plays_append _ _ _ _).mpr ⟨plays_addressTrace_of_acks haddr htx dev reg h, trivial, haddr _ _, hbytes⟩

end

/-- A bus with a byte in every receive phase gives as many as are asked for. -/
theorem exists_plays_receiveTrace {O : Oracle} (hrx : ∀ h m, ∃ v, O.rx h m = .byte v) (k : Nat) (h : List BusEvent) :
    ∃ (body : List Byte) (last : Byte), body.length = k ∧ Plays O h (receiveTrace body last) := by
  induction k generalizing h with
  | zero =>
    obtain ⟨last, hlast⟩ := hrx h .nack
    exact ⟨[], last, rfl, hlast, trivial, trivial⟩
  | succ k ih =>
    obtain ⟨v, hv⟩ := hrx h .ack
    obtain ⟨body, last, hlen, hplay⟩ := ih (h ++ [.rx v .ack])
    exact ⟨v :: body, last, by rw [List.length_cons, hlen], hv, hplay⟩

/-! ### The statements -/

/-- Settles O46: the bus plays both clean traces. -/
theorem singleByteCleanTraces : Obligations.SingleByteCleanTraces := by
  intro E s dev reg val v hready hstall haddr htx hrx w r
  have hwrite : Finished _ _ _ (.status .ok) w :=
    writeOne_clean hready hstall (plays_writeTrace_of_acks haddr htx dev reg s.hb [val])
  have hread : Finished _ _ _ (.byte .ok v) r :=
    readOne_clean hready hstall (plays_readTrace_of_acks haddr htx dev reg ⟨hrx _ _, trivial, trivial⟩)
  exact ⟨hwrite.result, hwrite.hb, hwrite.commands, hread.result, hread.hb, hread.commands⟩

/-- Settles O47: the bus plays the write burst's trace, and the read burst's of the bytes it gives. -/
theorem burstCleanTraces : Obligations.BurstCleanTraces := by
  intro E s dev reg bytes hready hpos hmax hstall haddr htx hrx n w r
  have hwrite : Finished _ _ _ (.status .ok) w :=
    writeBurst_clean hready hstall (List.ne_nil_of_length_pos hpos) (plays_writeTrace_of_acks haddr htx dev reg s.hb bytes)
  obtain ⟨body, last, hlen, hbytes⟩ := exists_plays_receiveTrace hrx (n - 1)
    (s.hb ++ addressTrace dev reg ++ [.rstart] ++ [.addr (saByte dev true) .ack])
  have hn : n = body.length + 1 := by omega
  have hread : Finished _ _ _ (.bytes .ok (body ++ [last])) r :=
    readBurst_clean hready hstall hn hmax (plays_readTrace_of_acks haddr htx dev reg hbytes)
  refine ⟨⟨hwrite.result, ?_, ?_⟩, body, last, hn.symm, hread.result, ?_, ?_⟩
  · rw [hwrite.hb]
    simp [writeTrace, addressTrace, payloadTrace]
  · rw [hwrite.commands]
    simp [payloadWords, n]
  · rw [hread.hb]
    simp [readTrace, addressTrace, receiveTrace]
  · rw [hread.commands, receiveWords]
    split <;> simp

/-- Settles O49: the device plays the trace of the write, then that of the read of the register it stored. -/
theorem writeThenReadReturnsTheByte : Obligations.WriteThenReadReturnsTheByte := by
  intro E d s reg v hdev hinject hready w r
  have hstall : ∀ h, E.oracle.stall h = false := fun _ => by rw [hdev]; rfl
  obtain ⟨hplay, hregs⟩ := plays_writeTrace hinject s.hb reg [v]
  have hwrite : Finished _ _ _ (.status .ok) w := writeOne_clean hready hstall (hdev ▸ hplay)
  have hadmits : requestFault E .writeOne (writeOneOperands d.d0 reg v) s = none := by
    obtain ⟨-, hidle, -, -, hinit, -⟩ := hready
    exact requestFault_fits hidle hinit (operandsBad_writeOne _ _ _ _) (by omega)
  have hw : readyToRun E w := hwrite.ready hready nofun hadmits
  have hload : loadAll (d.after w.hb).regs reg 1 = [v] := by
    rw [hwrite.hb, hregs]
    exact loadAll_storeAll [v] _ reg (by simp)
  have hread : Finished _ _ _ (.byte .ok v) r := readOne_clean hw hstall (hdev ▸ plays_readTrace hinject w.hb hload)
  exact ⟨hwrite.result, hread.result⟩

end Sys2Proof.Machine
end

section
/-!
PROOFS. A NACK of the write address on the schedule `rounds` (41_bus_commands.md R124, R128, 43_engine.md R177, 44_transactions.md
R195.3, 95_test_vectors.md P4): the command that meets it, the error path, and the end.
-/

namespace Sys2Proof.Machine

variable {E : Env} {r s t : State} {p : Pos} {st st' : CState} {h evs : List BusEvent} {ws : List Byte} {l : Label} {i : Nat}

/-- T0 to A2: three rounds from the entry guard set MSA and MDR for the addressing phase (R174, R176). -/
theorem Stands.preparesAddress (k : Stands r ⟨.t0, 0⟩ .idle h ws s) :
    Stands r ⟨.a3, 0⟩ .idle h ws (rounds E 3 s) ∧ (rounds E 3 s).msa = some (saByte r.dev false) ∧
      (rounds E 3 s).mdr = some r.reg := by
  have hguard : rounds E 1 s = goto .a1 0 s := by
    rw [k.round, engineAt, k.pos]
    exact if_neg (by simp [k.free])
  obtain ⟨hmsa, k1⟩ := (k.jump .a1 0).writes (E := E) (b := saByte r.dev false) (.inl rfl) (by rw [engineAt, ← k.dev]; rfl)
  obtain ⟨hmdr, k2⟩ := (k1.jump .a2 0).writes (E := E) (b := r.reg) (.inr rfl) (by rw [engineAt, ← k1.reg]; rfl)
  have hthree : rounds E 3 s = rounds E 1 (rounds E 1 (rounds E 1 s)) := rfl
  rw [hthree, hguard, hmsa, hmdr]
  exact ⟨k2.jump .a3 0, rfl, rfl⟩

/-- Two rounds: the engine sends `w`, and the controller completes it, with the address refused or not (R122, R175). -/
theorem Stands.completes (k : Stands r p st h ws s) {w : Byte} {nacked : Bool}
    (hissue : ∃ e, engineAt E s = engineCommand w e l i s) (hw : acceptFault w s = none)
    (hlatched : ¬ (w.setWidth 4 = 0x4#4 ∧ s.cstate = .idle)) (hstall : E.oracle.stall h = false)
    (hcmd : ∀ e, runCommand E (latchedPend w s) (sent w e l i s) =
      { settledAs (sent w e l i s) st' evs with adrack := nacked }) :
    Stands r ⟨l, i⟩ st' (h ++ evs) (ws ++ [w]) (rounds E 2 s) ∧ errorFlag (rounds E 2 s) = nacked := by
  obtain ⟨e, hissue⟩ := hissue
  have hsend : rounds E 1 s = sent w e l i s := by
    rw [k.round, hissue, engineCommand_sent w e l i k.free hw hlatched]
  have hhb : (sent w e l i s).hb = h := k.hb
  have hround : rounds E 1 (sent w e l i s) = complete E (sent w e l i s) := rfl
  have htwo : rounds E 2 s = rounds E 1 (rounds E 1 s) := rfl
  rw [htwo, hsend, hround, complete_running E _ (latchedPend w s) rfl rfl (hhb ▸ hstall), hcmd e]
  refine ⟨⟨k.clock, k.unstopped, ?_, k.active, rfl, rfl, ?_⟩, by simp [errorFlag, settledAs, sent]⟩
  · have hkept := congrArg (fun u : State => { u with cstate := st', hb := h ++ evs }) k.kept
    rw [← k.hb] at hkept ⊢
    exact hkept
  · rw [← k.commands]
    simp [engineCommands, settledAs, sent]

/-- One round polls, and the error test then answers ERROR (R172, R173). -/
theorem Stands.polls (k : Stands r p st h ws s) {next : State → State} (hat : engineAt E s = poll E next s) :
    ∃ t, rounds E 1 s = next t ∧ Stands r p st h ws t ∧ err t.snap = errorFlag s := by
  refine ⟨polled E s, ?_, k.arrives rfl rfl rfl k.pos (by simp [engineCommands, polled]), err_polled E s k.free⟩
  rw [k.round, hat]
  exact poll_idle E next s k.free

/-- A3 and A4: three rounds send the address, which no device acknowledges, and find the error (R124, R128, R177). -/
theorem Stands.addressRefused {m b : Byte} (k : Stands r ⟨.a3, 0⟩ .idle h ws s) (hstall : ∀ h, E.oracle.stall h = false)
    (hmsa : s.msa = some m) (hrs : rsBit (some m) = false) (hmdr : s.mdr = some b)
    (hnack : E.oracle.addr (h ++ [.start]) m = .nack) :
    Stands r ⟨.abort, 0⟩ .hold (h ++ [.start, .addr m .nack]) (ws ++ [0x03#8]) (rounds E 3 s) := by
  have hstart : startEvent s.cstate = .start := by rw [k.cstate]; rfl
  have hcmd (e : EState) : runCommand E (latchedPend 0x03#8 s) (sent 0x03#8 e .a4 0 s) =
      { settledAs (sent 0x03#8 e .a4 0 s) .hold [.start, .addr m .nack] with adrack := true } := by
    have hrefused : E.oracle.addr ((sent 0x03#8 e .a4 0 s).hb ++ [startEvent s.cstate]) m = .nack := by
      rw [hstart]
      exact k.hb ▸ hnack
    rw [runCommand_addressNacked (c := latchedPend 0x03#8 s) rfl hmsa hrefused,
      addressNacked_transmit (by simp [latchedPend, cmdDir, hmsa, hrs]), settledAs_emit, settledAs_emit, ← hstart]
    rfl
  obtain ⟨k1, herr⟩ := k.completes ⟨_, by rw [engineAt, k.pos]; rfl⟩ (by simp [acceptFault, k.mtpr, hmsa, hmdr])
    (fun hc => absurd hc.1 (by decide)) (hstall h) hcmd
  obtain ⟨t, hpoll, kt, hfound⟩ := k1.polls (E := E) (by rw [engineAt, k1.pos]; rfl)
  have hthree : rounds E 3 s = rounds E 1 (rounds E 2 s) := rfl
  rw [hthree, hpoll, checkErr, if_pos (hfound.trans herr)]
  exact kt.arrives rfl rfl rfl rfl rfl

/-- ABORT and X1: three rounds stop the bus that is held (R127, R177). -/
theorem Stands.stopsBus (k : Stands r ⟨.abort, 0⟩ .hold h ws s) (hstall : ∀ h, E.oracle.stall h = false) :
    Stands r ⟨.x2, 0⟩ .idle (h ++ [.stop]) (ws ++ [0x04#8]) (rounds E 3 s) := by
  have habort : rounds E 1 s = stepAbort s := by rw [k.round, engineAt, k.pos]
  have k1 : Stands r ⟨.x1, 0⟩ .hold h ws (stepAbort s) := k.arrives rfl rfl rfl rfl rfl
  have hstop (e : EState) : runCommand E (latchedPend 0x04#8 (stepAbort s)) (sent 0x04#8 e .x2 0 (stepAbort s)) =
      { settledAs (sent 0x04#8 e .x2 0 (stepAbort s)) .idle [.stop] with adrack := false } :=
    runCommand_stop rfl rfl
  obtain ⟨k2, -⟩ := k1.completes ⟨_, by rw [engineAt, k1.pos]; rfl⟩ (by simp [acceptFault, k1.mtpr])
    (fun hc => by simp [k1.cstate] at hc) (hstall h) hstop
  have hthree : rounds E 3 s = rounds E 2 (rounds E 1 s) := rfl
  rw [hthree, habort]
  exact k2

/-- X2: one round finishes the request with FAIL (R171, R177). -/
theorem Stands.fails (k : Stands r ⟨.x2, 0⟩ .idle h ws s) :
    ∃ u, rounds E 1 s = finishRequest E .fail u ∧ Stands r ⟨.x2, 0⟩ .idle h ws u := by
  obtain ⟨u, hpoll, ku, -⟩ := k.polls (E := E) (by rw [engineAt, k.pos]; rfl)
  exact ⟨u, hpoll, ku⟩

/-- A transaction with bytes to move is not one that finishes at its acceptance. -/
theorem not_zero_burst {op : Op} {o : Operands} (hburst : Op.isBurst op = true → 1 ≤ o.n) :
    ¬ (Op.isBurst op = true ∧ o.n = 0) := by
  rintro ⟨hb, hzero⟩
  have hone := hburst hb
  omega

theorem op_ne_init_of_isTxn {op : Op} (htxn : Op.isTxn op = true) : op ≠ .init := by
  rintro rfl
  cases htxn

/-- Settles O48: three rounds to A3, three to the error, three to the STOP, and the last finishes. -/
theorem addressNackIsContained : Obligations.AddressNackIsContained := by
  intro E s op o hready htxn _ hburst hstall haddr
  have hop := op_ne_init_of_isTxn htxn
  have hn := not_zero_burst hburst
  obtain ⟨-, hdev, -, -⟩ := acceptRequest_latches (E := E) (s := s) hop hn
  obtain ⟨k3, hmsa, hmdr⟩ := (stands_acceptRequest hready hop hn).preparesAddress (E := E)
  have k6 := k3.addressRefused hstall hmsa (rsBit_saByte _ _) hmdr (haddr _ _)
  obtain ⟨u, hlast, ku⟩ := (k6.stopsBus hstall).fails (E := E)
  have hten : rounds E 10 (acceptRequest E op o s) = finishRequest E .fail u := hlast
  dsimp only
  rw [hten, finishRequest_state]
  refine ⟨rfl, rfl, rfl, ku.cstate, ku.free, ?_, ?_⟩
  · rw [← hdev]
    exact ku.hb.trans (by simp)
  · exact ku.commands.trans (by simp)

end Sys2Proof.Machine
end

section
/-!
PROOFS. The trace of a transaction over every oracle (41_bus_commands.md R122 to R129): what a command in flight adds to HB, by how
its phases are answered.
-/

namespace Sys2Proof.Machine

/-! ### The shape of a trace -/

/-- START and the repeated START (R123). -/
def isStart : BusEvent → Bool
  | .start => true
  | .rstart => true
  | .addr _ _ => false
  | .tx _ _ => false
  | .rx _ _ => false
  | .rxLost => false
  | .stop => false

/-- An event that releases the bus: STOP, or the loss of it to another party (R127, R129). -/
def releases (e : BusEvent) : Bool := e == .stop || losesBus e

/-- The bus is held after a trace with no event that releases it, and Idle after one whose last event alone does. -/
inductive Leaves : CState → List BusEvent → Prop
  | held {st : CState} {tr : List BusEvent} (hst : st ≠ .idle) (hopen : tr.any releases = false) : Leaves st tr
  | released {tr : List BusEvent} {e : BusEvent} (hopen : tr.any releases = false) (he : releases e = true) :
    Leaves .idle (tr ++ [e])

variable {E : Env} {c : Pend} {s a t u : State} {st : CState} {tr evs : List BusEvent}

theorem Leaves.unreleased (k : Leaves st tr) (hst : st ≠ .idle) : tr.any releases = false := by
  cases k with
  | held _ hopen => exact hopen
  | released => exact absurd rfl hst

/-- A command's events after a trace that left the bus to it. -/
theorem Leaves.append (hopen : tr.any releases = false) (k : Leaves st evs) : Leaves st (tr ++ evs) := by
  cases k with
  | held hst hevs => exact .held hst (by simp [hopen, hevs])
  | released hevs he =>
    rw [← List.append_assoc]
    exact .released (by simp [hopen, hevs]) he

/-- A phase that was answered, and the STOP after it if the command has one (R122, R128). -/
theorem Leaves.phase {e : BusEvent} (stop : Bool) (he : releases e = false) (hst : st ≠ .idle) :
    Leaves (endState stop st) (e :: endEvents stop) := by
  cases stop with
  | false => exact .held hst (by simp [endEvents, he])
  | true => exact .released (tr := [e]) (by simp [he]) rfl

/-! ### What a command adds -/

/-- From `a` to `t` a command adds `evs` to HB: among them `starts`, the bus is left as the last of them says, and the error latches
tell whether one reports an error (R27, R122). -/
structure Emits (starts : List BusEvent) (a t : State) (evs : List BusEvent) : Prop where
  hb : t.hb = a.hb ++ evs
  starts : evs.filter isStart = starts
  leaves : Leaves t.cstate evs
  errors : evs.any reportsError = errorFlag t

/-- MDR and the draws are no part of it. -/
theorem Emits.ofSameButMdr {starts : List BusEvent} (hsame : sameButMdr t u) (k : Emits starts a u evs) :
    Emits starts a t evs := by
  obtain ⟨heq, -⟩ := hsame
  rw [heq]
  exact ⟨k.hb, k.starts, k.leaves, k.errors⟩

theorem filter_isStart_endEvents (stop : Bool) : (endEvents stop).filter isStart = [] := by cases stop <;> rfl

theorem any_reportsError_endEvents (stop : Bool) : (endEvents stop).any reportsError = false := by cases stop <;> rfl

theorem errorFlag_eq_false_iff : errorFlag s = false ↔ (s.adrack = false ∧ s.datack = false) ∧ s.arblst = false := by
  simp [errorFlag]

/-- A transmit is acknowledged or not, or loses the bus (R125). -/
theorem emits_dataPart_transmit {b : Byte} (hclear : errorFlag a = false) (hdir : c.dir = some .tx) (hdata : c.data = some b) :
    ∃ evs, Emits [] a (dataPart E c a) evs := by
  obtain ⟨⟨hadr, hdat⟩, harb⟩ := errorFlag_eq_false_iff.mp hclear
  cases hx : E.oracle.tx a.hb b with
  | ack =>
    rw [dataPart_transmits hdir hdata ⟨hx, trivial⟩]
    exact ⟨_, rfl, filter_isStart_endEvents _, Leaves.phase _ rfl (by decide),
      by simp [reportsError, any_reportsError_endEvents, errorFlag, settledAs, hadr, hdat, harb]⟩
  | nack =>
    rw [dataPart_transmitNacked hdir hdata hx]
    exact ⟨_, rfl, filter_isStart_endEvents _, Leaves.phase _ rfl (by decide), by simp [reportsError, errorFlag]⟩
  | arbLost =>
    rw [dataPart_transmitLost hdir hdata hx]
    exact ⟨_, rfl, rfl, .released (tr := []) rfl rfl, by simp [reportsError, errorFlag]⟩

/-- A receive gets a byte or loses the bus (R126). -/
theorem emits_dataPart_receive (hclear : errorFlag a = false) (hdir : c.dir = some .rx) :
    ∃ evs, Emits [] a (dataPart E c a) evs := by
  obtain ⟨⟨hadr, hdat⟩, harb⟩ := errorFlag_eq_false_iff.mp hclear
  cases hx : E.oracle.rx a.hb (masterAck c.ack) with
  | byte v =>
    rw [dataPart_receives hdir ⟨hx, trivial⟩]
    exact ⟨_, rfl, filter_isStart_endEvents _, Leaves.phase _ rfl (by cases c.ack <;> decide),
      by simp [reportsError, any_reportsError_endEvents, errorFlag, settledAs, hadr, hdat, harb]⟩
  | arbLost =>
    exact ⟨_, .ofSameButMdr (dataPart_receiveLost hdir hx)
      ⟨rfl, rfl, .released (tr := []) rfl rfl, by simp [reportsError, errorFlag]⟩⟩

/-- The data phase of an admitted command, from a state with no error (R120, R122). -/
theorem emits_dataPart (hclear : errorFlag a = false) (hdir : c.dir = some .tx ∧ c.data ≠ none ∨ c.dir = some .rx) :
    ∃ evs, Emits [] a (dataPart E c a) evs := by
  rcases hdir with ⟨htx, hdata⟩ | hrx
  · obtain ⟨b, hb⟩ := Option.ne_none_iff_exists'.mp hdata
    exact emits_dataPart_transmit hclear htx hb
  · exact emits_dataPart_receive hclear hrx

/-- An address that is not acknowledged: the command's own STOP follows, if it has one (R124, R128). -/
theorem emits_addressNacked (hdir : c.dir = some .tx ∨ c.dir = some .rx) (hb : a.hb = s.hb ++ tr)
    (hopen : tr.any releases = false) (herr : tr.any reportsError = true) :
    Emits (tr.filter isStart) s (addressNacked E c a) (tr ++ endEvents c.stop) := by
  have hsettled : Emits (tr.filter isStart) s
      { settledAs a (endState c.stop .hold) (endEvents c.stop) with adrack := true } (tr ++ endEvents c.stop) := by
    refine ⟨by simp [settledAs, hb], by simp [filter_isStart_endEvents], ?_, by simp [herr, errorFlag]⟩
    cases c.stop with
    | false => exact .held (show CState.hold ≠ .idle by decide) (by simpa [endEvents] using hopen)
    | true => exact .released hopen rfl
  rcases hdir with htx | hrx
  · rw [addressNacked_transmit htx]
    exact hsettled
  · exact .ofSameButMdr (addressNacked_receive hrx) hsettled

/-- The loss of the bus at the address is the command's last event (R124, R129). -/
theorem emits_lost {e : BusEvent} (hdir : c.dir = some .tx ∨ c.dir = some .rx) (hb : a.hb = s.hb ++ (tr ++ [e]))
    (hopen : tr.any releases = false) (he : releases e = true) (herr : reportsError e = true) :
    Emits ((tr ++ [e]).filter isStart) s (lost E c a) (tr ++ [e]) := by
  have hsettled : Emits ((tr ++ [e]).filter isStart) s { settledAs a .idle [] with arblst := true } (tr ++ [e]) :=
    ⟨by simp [settledAs, hb], rfl, .released hopen he, by simp [herr, errorFlag]⟩
  rcases hdir with htx | hrx
  · rw [lost_transmit htx]
    exact hsettled
  · exact .ofSameButMdr (lost_receive hrx) hsettled

/-- The direction of an admitted command with a data phase, and what it sends (R120, R121). -/
theorem PendOk.direction (p : PendOk c s) (hrun : c.run = true) : c.dir = some .tx ∧ c.data ≠ none ∨ c.dir = some .rx := by
  have hdir : c.dir = some .tx ∨ c.dir = some .rx := by
    cases hstart : c.start with
    | true =>
      obtain ⟨-, -, hd⟩ := p.started hstart
      rw [hd]
      cases rsBit c.addr <;> simp
    | false =>
      rcases p.going hstart hrun with ⟨-, hd⟩ | ⟨-, hd⟩
      · exact .inl hd
      · exact .inr hd
  exact hdir.imp_left fun htx => ⟨htx, p.sends hrun htx⟩

/-- START or the repeated START and the address, by the answer (R123, R124). -/
theorem addressEvents_eq (st : CState) (m : Byte) (x : Answer) :
    [startEvent st, .addr m x].filter isStart = [startEvent st] ∧
      [startEvent st, .addr m x].any releases = (x == .arbLost) ∧
      [startEvent st, .addr m x].any reportsError = (x != .ack) := by
  cases st <;> cases x <;> exact ⟨rfl, rfl, rfl⟩

/-- A command with START: its start and address, and the data phase of an address acknowledged (R122 to R124). -/
theorem emits_runCommand_start (p : PendOk c s) (hstart : c.start = true) :
    ∃ evs, Emits [startEvent c.origin] s (runCommand E c s) evs := by
  obtain ⟨hrun, haddr, -⟩ := p.started hstart
  obtain ⟨m, hm⟩ := Option.ne_none_iff_exists'.mp haddr
  have hdir := p.direction hrun
  have hany : c.dir = some .tx ∨ c.dir = some .rx := hdir.imp_left And.left
  cases hx : E.oracle.addr (s.hb ++ [startEvent c.origin]) m with
  | ack =>
    obtain ⟨hstarts, hopen, hclean⟩ := addressEvents_eq c.origin m .ack
    rw [runCommand_addressAcked hstart hm hx]
    obtain ⟨evs, k⟩ := emits_dataPart (E := E) (c := c) (a := emit (.addr m .ack) (emit (startEvent c.origin) s)) p.noError hdir
    refine ⟨[startEvent c.origin, .addr m .ack] ++ evs, by simp [k.hb], ?_, k.leaves.append hopen, ?_⟩
    · rw [List.filter_append, k.starts, hstarts, List.append_nil]
    · rw [List.any_append, hclean, k.errors]
      rfl
  | nack =>
    obtain ⟨hstarts, hopen, herr⟩ := addressEvents_eq c.origin m .nack
    rw [runCommand_addressNacked hstart hm hx, ← hstarts]
    exact ⟨_, emits_addressNacked hany (by simp) hopen herr⟩
  | arbLost =>
    obtain ⟨hstarts, -⟩ := addressEvents_eq c.origin m .arbLost
    have hopen : [startEvent c.origin].any releases = false := by cases c.origin <;> rfl
    rw [runCommand_addressLost hstart hm hx, ← hstarts]
    exact ⟨_, emits_lost (tr := [startEvent c.origin]) hany (by simp) hopen rfl rfl⟩

/-- What an admitted command adds to the trace: with START one start, START from Idle and else the repeated one (R122, R123). -/
theorem emits_runCommand (p : PendOk c s) :
    ∃ evs, Emits (if c.start then [startEvent c.origin] else []) s (runCommand E c s) evs := by
  cases hstart : c.start with
  | true => exact emits_runCommand_start p hstart
  | false =>
    cases hrun : c.run with
    | true =>
      rw [runCommand_run hstart hrun]
      exact emits_dataPart p.noError (p.direction hrun)
    | false =>
      obtain ⟨⟨hadr, hdat⟩, harb⟩ := errorFlag_eq_false_iff.mp p.noError
      rw [runCommand_stop hstart hrun]
      exact ⟨[.stop], rfl, rfl, .released (tr := []) rfl rfl, by simp [reportsError, errorFlag, settledAs, hadr, hdat, harb]⟩

end Sys2Proof.Machine
end

section
/-!
PROOFS. The trace of a transaction over every oracle, on the schedule `rounds` (44_transactions.md R195.2, R195.5): what the trace
holds at each position of the engine, that every step keeps it, and what it is when the request has ended.
-/

namespace Sys2Proof.Machine

/-! ### How far the trace is -/

/-- A transaction's trace is still empty, has its START, has its repeated START, or is followed by the error path (R176, R177, R191,
R193). -/
inductive Stage where
  | fresh | started | turned | failed

/-- The stage at a position of the engine; a command with START in flight there has not yet added to the trace. -/
def stageAt (l : Label) (busy : Bool) : Stage :=
  match l with
  | .i0 | .i1 | .t0 | .a1 | .a2 | .a3 => .fresh
  | .a4 => if busy then .fresh else .started
  | .w1 | .w2 | .w3 | .b1 | .b2 | .b3 | .b4 | .b5 | .b6 | .r1 | .r2 | .q1 | .q2 | .s1 => .started
  | .r3 | .q3 | .s2 => if busy then .started else .turned
  | .r4 | .q4 | .m1 | .m2 | .m3 | .l1 | .l2 | .l3 | .s3 => .turned
  | .abort | .x1 | .x2 => .failed

def stage (s : State) : Stage := stageAt s.epc.label s.busy

/-- The starts in a trace at its stage (R123). -/
def Starts (tr : List BusEvent) : Stage → Prop
  | .fresh => tr = []
  | .started => tr.filter isStart = [.start]
  | .turned => tr.filter isStart = [.start, .rstart]
  | .failed => tr.filter isStart = [.start] ∨ tr.filter isStart = [.start, .rstart]

/-- Whether the trace has reported an error: the latches tell, until the error path clears them (R120, R177). -/
def erred (s : State) : Bool :=
  match stage s with
  | .fresh => false
  | .started => errorFlag s
  | .turned => errorFlag s
  | .failed => true

/-- The trace `tr` of the transaction that runs in `s`, or has just ended there. -/
structure Traced (tr : List BusEvent) (s : State) : Prop where
  starts : Starts tr (stage s)
  untaken : tr = [] → s.cstate = .idle
  leaves : tr ≠ [] → Leaves s.cstate tr
  errors : tr.any reportsError = erred s
  /-- a command in flight found the bus held, but for the first -/
  waiting : s.busy = true → (s.epc.label ≠ .t0 ∧ s.epc.label ≠ .l3 ∧ s.epc.label ≠ .s3) ∧ (tr ≠ [] → s.cstate ≠ .idle)
  /-- at the two positions that read the last byte the error test is still the poll's (R193) -/
  polled : s.epc.label = .l3 ∨ s.epc.label = .s3 → err s.snap = errorFlag s

variable {E : Env} {m : Nat} {s t r : State} {c : Pend} {st : CState} {tr evs : List BusEvent} {l : Label} {i : Nat}

/-- A trace with its START is no longer empty. -/
theorem Starts.begun {g : Stage} (h : Starts tr g) (hg : g ≠ .fresh) : tr ≠ [] := by
  rintro rfl
  cases g with
  | fresh => exact hg rfl
  | started | turned | failed => simp [Starts] at h

theorem Starts.of_begun {g : Stage} (h : Starts tr g) (hne : tr ≠ []) :
    tr.filter isStart = [.start] ∨ tr.filter isStart = [.start, .rstart] := by
  cases g with
  | fresh => exact absurd h hne
  | started => exact .inl h
  | turned => exact .inr h
  | failed => exact h

/-- Between the first command and the error path the latches tell. -/
theorem erred_eq_errorFlag (hs : stage s = .started ∨ stage s = .turned) : erred s = errorFlag s := by
  rcases hs with hs | hs <;> rw [erred, hs]

/-- A command with no start of its own adds none. -/
theorem Starts.append {g : Stage} (h : Starts tr g) (hg : g ≠ .fresh) (hevs : evs.filter isStart = []) :
    Starts (tr ++ evs) g := by
  cases g with
  | fresh => exact absurd rfl hg
  | started | turned | failed => simpa [Starts, hevs] using h

/-! ### A step of the engine keeps the trace -/

/-- The trace `tr` of a transaction that has ended in `t`, whose status says whether the trace reported an error (R195.5). -/
structure Concluded (tr : List BusEvent) (t : State) : Prop where
  starts : tr.filter isStart = [.start] ∨ tr.filter isStart = [.start, .rstart]
  leaves : Leaves t.cstate tr
  status : t.status = .ok ↔ tr.any reportsError = false

/-- From `s` to `t` the engine faulted, or it goes on with the trace as it must be, or has ended with it. -/
def Tracks (tr : List BusEvent) (s t : State) : Prop :=
  t.faults = s.faults → (t.eact = true → Traced tr t) ∧ (t.eact = false → Concluded tr t)

theorem tracks_raise (f : Fault) (a : Agent) (what : Input) : Tracks tr s (raise f a what s) := fun hf => by simp at hf

theorem Traced.tracks (k : Traced tr t) (hact : t.eact = true) : Tracks tr s t :=
  fun _ => ⟨fun _ => k, fun h => absurd (hact.symm.trans h) (by decide)⟩

/-- What of the state a step's access leaves, and the trace's place depends on. -/
def traceFields (s : State) := (s.cstate, s.busy, errorFlag s, s.eact)

section
variable (k : Traced tr s) (ha : s.eact = true) (hb : s.busy = false)
include k ha hb

/-- On to a position of the same stage. -/
theorem tracks_goto_of (hsame : traceFields t = traceFields s) (hstage : stageAt l false = stage s)
    (hpolled : l = .l3 ∨ l = .s3 → err t.snap = errorFlag s) : Tracks tr s (goto l i t) := by
  simp only [traceFields, Prod.mk.injEq] at hsame
  obtain ⟨hc, hbusy, herr, hact⟩ := hsame
  have hfree : (goto l i t).busy = false := hbusy.trans hb
  have hflag : errorFlag (goto l i t) = errorFlag s := herr
  have hs : stage (goto l i t) = stage s := by
    rw [stage, hfree]
    exact hstage
  refine Traced.tracks ⟨hs ▸ k.starts, fun h => hc.trans (k.untaken h), fun h => ?_, ?_, fun h => ?_, fun h => ?_⟩
    (hact.trans ha)
  · exact hc.symm ▸ k.leaves h
  · rw [k.errors, erred, erred, hs, hflag]
  · exact absurd (hfree.symm.trans h) (by decide)
  · exact (hpolled h).trans hflag.symm

theorem tracks_goto (hsame : traceFields t = traceFields s) (hstage : stageAt l false = stage s)
    (hl : l ≠ .l3 ∧ l ≠ .s3) : Tracks tr s (goto l i t) :=
  tracks_goto_of k ha hb hsame hstage fun h => (h.elim hl.1 hl.2).elim

/-- To ABORT, on an error (R177). -/
theorem tracks_toAbort (herr : errorFlag s = true) (hs : stage s = .started ∨ stage s = .turned)
    (hsame : traceFields t = traceFields s) : Tracks tr s (toAbort t) := by
  simp only [traceFields, Prod.mk.injEq] at hsame
  obtain ⟨hc, hbusy, -, hact⟩ := hsame
  have hfree : (toAbort t).busy = false := hbusy.trans hb
  refine Traced.tracks ⟨?_, fun h => hc.trans (k.untaken h), fun h => ?_, ?_, fun h => ?_, ?_⟩ (hact.trans ha)
  · have hstarts := k.starts
    rcases hs with hs | hs <;> rw [hs] at hstarts
    · exact .inl hstarts
    · exact .inr hstarts
  · exact hc.symm ▸ k.leaves h
  · exact k.errors.trans ((erred_eq_errorFlag hs).trans herr)
  · exact absurd (hfree.symm.trans h) (by decide)
  · rintro (h | h) <;> cases h

end

/-- The request finishes (R171). -/
theorem tracks_finishRequest {g : Status} (k : Traced tr s) (hc : t.cstate = s.cstate) (hs : stage s ≠ .fresh)
    (hg : g = .ok ↔ erred s = false) : Tracks tr s (finishRequest E g t) := by
  have hne := k.starts.begun hs
  rw [finishRequest_state]
  refine fun _ => ⟨nofun, fun _ => ⟨k.starts.of_begun hne, ?_, ?_⟩⟩
  · exact hc.symm ▸ k.leaves hne
  · rw [k.errors]
    exact hg

/-- The status that the error test gives (R173). -/
theorem tracks_finishByErr (k : Traced tr s) (hc : t.cstate = s.cstate) (hs : stage s = .started ∨ stage s = .turned)
    (herr : err t.snap = errorFlag s) : Tracks tr s (finishByErr E t) := by
  refine tracks_finishRequest k hc (by rcases hs with hs | hs <;> simp [hs]) ?_
  rw [erred_eq_errorFlag hs, herr]
  cases errorFlag s <;> decide

/-! The blocks the engine's steps are built from. -/

/-- What the rest of a step may use of the state after its read. -/
def readFields (s : State) := (traceFields s, s.op)

/-- The rest of the step goes on from a poll whose error test is ERROR (R172, R173). -/
theorem tracks_poll {next : State → State} (hb : s.busy = false)
    (hnext : ∀ t, readFields t = readFields s → err t.snap = errorFlag s → Tracks tr s (next t)) :
    Tracks tr s (poll E next s) := by
  rw [poll_idle E next s hb]
  exact hnext _ rfl (err_polled E s hb)

/-- To ABORT on an error, else on (R177). -/
theorem tracks_pollErr {next : State → State} (k : Traced tr s) (ha : s.eact = true) (hb : s.busy = false)
    (hs : stage s = .started ∨ stage s = .turned)
    (hnext : ∀ t, readFields t = readFields s → Tracks tr s (next t)) : Tracks tr s (poll E (checkErr next) s) := by
  refine tracks_poll hb fun t hsame herr => ?_
  unfold checkErr
  rw [herr]
  split
  next hf => exact tracks_toAbort k ha hb hf hs (congrArg Prod.fst hsame)
  · exact hnext t hsame

theorem tracks_read {g : Reg} {next : Byte → State → State}
    (hnext : ∀ v t, readFields t = readFields s → t.snap = s.snap → Tracks tr s (next v t)) :
    Tracks tr s (engineRead E g next s) := by
  rcases engineRead_cases E g next s with ⟨f, -, h⟩ | ⟨-, h⟩ <;> rw [h]
  · exact tracks_raise f _ _
  · exact hnext _ _ rfl rfl

theorem tracks_readToBuf {j : Nat} {next : State → State}
    (hnext : ∀ t, readFields t = readFields s → t.snap = s.snap → Tracks tr s (next t)) :
    Tracks tr s (readToBuf E j next s) :=
  tracks_read fun _ _ hsame hsnap => hnext _ hsame hsnap

theorem tracks_write {g : Reg} {b : Byte} {next : State → State} (hnext : Tracks tr s (next (written g b s))) :
    Tracks tr s (engineWrite g b next s) := by
  rcases engineWrite_cases g b next s with ⟨f, -, h⟩ | ⟨-, h⟩ <;> rw [h]
  · exact tracks_raise f _ _
  · exact hnext

theorem tracks_writeBufByte {j : Nat} (k : Traced tr s) (ha : s.eact = true) (hb : s.busy = false)
    (hstage : stageAt l false = stage s) (hl : l ≠ .l3 ∧ l ≠ .s3) :
    Tracks tr s (writeBufByte E j l i s) := by
  unfold writeBufByte
  cases s.wbuf[j]? with
  | some v => exact tracks_write (tracks_goto k ha hb rfl hstage hl)
  | none =>
    have hgoes (b : Byte) : Tracks tr s (goto l i (written .mdr b { s with draws := s.draws + 1 })) :=
      tracks_goto k ha hb rfl hstage hl
    exact tracks_write (s := { s with draws := s.draws + 1 }) (hgoes _)

/-- The engine may send a command with a data phase at the start, and where it holds the bus (R121, R195.4). -/
def MaySend (s : State) : Prop := stage s = .fresh ∨ errorFlag s = false ∧ s.cstate ≠ .idle

theorem Holding.maySend (h : Holding st s) (hst : st ≠ .idle) : MaySend s := by
  obtain ⟨-, hc, herr⟩ := h
  exact .inr ⟨herr, hc ▸ hst⟩

/-- A command just sent has yet to add to the trace (R122). -/
theorem Traced.sent {w : Byte} {e : EState} (k : Traced tr s) (hmay : MaySend s)
    (hstage : stageAt l true = stage s) (hl : l ≠ .t0 ∧ l ≠ .l3 ∧ l ≠ .s3) :
    Traced tr (Machine.sent w e l i s) := by
  have hs : stage (Machine.sent w e l i s) = stage s := hstage
  have hflag : errorFlag (Machine.sent w e l i s) = false := rfl
  refine ⟨hs ▸ k.starts, k.untaken, k.leaves, ?_, fun _ => ⟨hl, fun hne => ?_⟩, fun h => (h.elim hl.2.1 hl.2.2).elim⟩
  · rw [k.errors, erred, erred, hs, hflag]
    rcases hmay with hfresh | ⟨hclear, -⟩
    · rw [hfresh]
    · rw [hclear]
  · rcases hmay with hfresh | ⟨-, hheld⟩
    · have hempty := k.starts
      rw [hfresh] at hempty
      exact absurd hempty hne
    · exact hheld

theorem tracks_command {w : Byte} {e : EState} (k : Traced tr s) (ha : s.eact = true) (hb : s.busy = false)
    (hrun : cmdRunBit w = true) (hmay : MaySend s) (hstage : stageAt l true = stage s)
    (hl : l ≠ .t0 ∧ l ≠ .l3 ∧ l ≠ .s3) : Tracks tr s (engineCommand w e l i s) := by
  rcases engineWrite_cases .mcs w (fun t => goto l i { t with estate := e }) s with ⟨f, -, h⟩ | ⟨hw, -⟩
  · rw [engineCommand, h]
    exact tracks_raise f _ _
  · have haccept : acceptFault w s = none := by simpa [writeFault, hb] using hw
    rw [engineCommand_sent w e l i hb haccept fun h => word_ne_stop_of_run w hrun h.1]
    exact (k.sent hmay hstage hl).tracks ha

/-- The error path goes on to X2: its STOP is in flight where the bus is held (R177). -/
theorem Traced.toX2 (k : Traced tr s) (hs : stage s = .failed) (hc : t.cstate = s.cstate) (hl : t.epc.label = .x2)
    (hbusy : t.busy = true → t.cstate ≠ .idle) : Traced tr t := by
  have ht : stage t = .failed := by rw [stage, hl]; rfl
  refine ⟨?_, fun h => hc.trans (k.untaken h), fun h => hc.symm ▸ k.leaves h, ?_, fun h => ⟨by simp [hl], fun _ => hbusy h⟩,
    by simp [hl]⟩
  · rw [ht, ← hs]
    exact k.starts
  · rw [k.errors, erred, erred, ht, hs]

/-- X1 sends CMD_STOP, which only clears the latches where the bus is Idle (R133, R177). -/
theorem RunsTxn.tracks_x1 (h : RunsTxn m s) (k : Traced tr s) (hb : s.busy = false) (hs : stage s = .failed) :
    Tracks tr s (stepX1 s) := by
  have hw : acceptFault 0x04#8 s = none := by simp [acceptFault, h.clock]
  unfold stepX1
  by_cases hidle : s.cstate = .idle
  · have heff : acceptEffect 0x04#8 s = clearLatches s := if_pos ⟨rfl, hidle⟩
    rw [engineCommand_done _ _ _ _ s hb hw, heff]
    exact Traced.tracks (k.toX2 hs rfl rfl fun hbusy => absurd (hb.symm.trans hbusy) (by decide)) h.active
  · rw [engineCommand_sent _ _ _ _ hb hw fun hc => hidle hc.2]
    exact Traced.tracks (k.toX2 hs rfl rfl fun _ => hidle) h.active

/-- After the addressing phase each operation has its first step (R190 to R193). -/
theorem tracks_afterAddressing (k : Traced tr s) (ha : s.eact = true) (hb : s.busy = false)
    (hsame : traceFields t = traceFields s) (hop : t.op ≠ .init) (hstage : stage s = .started) :
    Tracks tr s (afterAddressing t) := by
  unfold afterAddressing
  cases ht : t.op with
  | init => exact absurd ht hop
  | writeOne | readOne | readBurst => exact tracks_goto k ha hb hsame hstage.symm (by decide)
  | writeBurst =>
    dsimp only
    split <;> exact tracks_goto k ha hb hsame hstage.symm (by decide)

/-- A jump to one of two labels (R192, R193). -/
theorem tracks_ite_goto {p : Prop} [Decidable p] {l' : Label} {i' : Nat} (k : Traced tr s) (ha : s.eact = true)
    (hb : s.busy = false) (hsame : readFields t = readFields s) (hstage : stageAt l false = stage s)
    (hstage' : stageAt l' false = stage s) (hl : l ≠ .l3 ∧ l ≠ .s3) (hl' : l' ≠ .l3 ∧ l' ≠ .s3) :
    Tracks tr s (if p then goto l i t else goto l' i' t) := by
  split
  · exact tracks_goto k ha hb (congrArg Prod.fst hsame) hstage hl
  · exact tracks_goto k ha hb (congrArg Prod.fst hsame) hstage' hl'

/-- Each position by the block it is (R195.2, R195.5). -/
theorem RunsTxn.tracks (h : RunsTxn m s) (k : Traced tr s) (hb : s.busy = false) : Tracks tr s (Machine.engineAt E s) := by
  have ha := h.active
  have hE := h.inv.engine ha
  have hs {g : Label} (hl : s.epc.label = g) : stage s = stageAt g false := by rw [stage, hl, hb]
  revert hE
  unfold EngineAtOk Machine.engineAt
  cases hl : s.epc.label with
  | i0 | i1 =>
    rintro ⟨hop, -⟩
    exact absurd hop h.txn
  | t0 =>
    intro _
    dsimp only
    rw [stepT0, if_neg (ne_true_of_eq_false hb)]
    exact tracks_goto k ha hb rfl (hs hl).symm (by decide)
  | a1 | a2 | w1 | r1 => exact fun _ => tracks_write (tracks_goto k ha hb rfl (hs hl).symm (by decide))
  | a3 => exact fun _ => tracks_command k ha hb rfl (.inl (hs hl)) (hs hl).symm (by decide)
  | a4 =>
    refine fun _ => tracks_pollErr k ha hb (.inl (hs hl)) fun t hsame => ?_
    have hop : t.op = s.op := congrArg Prod.snd hsame
    exact tracks_afterAddressing (t := { t with estate := .addrWriteDone }) k ha hb (congrArg Prod.fst hsame)
      (hop ▸ h.txn) (hs hl)
  | abort => exact fun _ => tracks_goto (t := { s with estate := .error }) k ha hb rfl (hs hl).symm (by decide)
  | x1 => exact fun _ => h.tracks_x1 k hb (hs hl)
  | x2 =>
    have hfailed : stage s = .failed := hs hl
    refine fun _ => tracks_poll hb fun t hsame _ => tracks_finishRequest k (congrArg (·.1.1) hsame) (by simp [hfailed]) ?_
    simp [erred, hfailed]
  | w2 | b5 =>
    rintro ⟨-, -, hhold, -⟩
    exact tracks_command k ha hb rfl (hhold.maySend (by decide)) (hs hl).symm (by decide)
  | w3 | b6 => exact fun _ => tracks_poll hb fun t hsame => tracks_finishByErr k (congrArg (·.1.1) hsame) (.inl (hs hl))
  | r2 =>
    rintro ⟨-, -, hhold, -⟩
    exact tracks_command k ha hb rfl (hhold.maySend (by decide)) (hs hl).symm (by decide)
  | r3 =>
    refine fun _ => tracks_poll hb fun t hsame herr => ?_
    have hturned : stage s = .turned := hs hl
    rw [herr]
    split
    next hf => exact tracks_finishRequest k (congrArg (·.1.1) hsame) (by simp [hturned]) (by simp [erred, hturned, hf])
    · exact tracks_goto k ha hb (congrArg Prod.fst hsame) (hs hl).symm (by decide)
  | r4 =>
    rintro ⟨-, -, ⟨-, -, hclean⟩, -⟩
    have hturned : stage s = .turned := hs hl
    exact tracks_read fun _ t hsame _ => tracks_finishRequest k (congrArg (·.1.1) hsame) (by simp [hturned])
      (by simp [erred, hturned, hclean])
  | b1 | b4 => exact fun _ => tracks_writeBufByte k ha hb (hs hl).symm (by decide)
  | b2 | q2 | s1 =>
    rintro ⟨-, -, -, hhold, -⟩
    exact tracks_command k ha hb rfl (hhold.maySend (by decide)) (hs hl).symm (by decide)
  | b3 =>
    exact fun _ => tracks_pollErr k ha hb (.inl (hs hl)) fun t hsame =>
      tracks_ite_goto k ha hb hsame (hs hl).symm (hs hl).symm (by decide) (by decide)
  | q1 =>
    exact fun _ => tracks_write (tracks_ite_goto k ha hb rfl (hs hl).symm (hs hl).symm (by decide) (by decide))
  | q3 | m2 =>
    exact fun _ => tracks_pollErr k ha hb (.inr (hs hl)) fun t hsame =>
      tracks_goto k ha hb (congrArg Prod.fst hsame) (hs hl).symm (by decide)
  | q4 | m3 =>
    exact fun _ => tracks_readToBuf fun t hsame _ =>
      tracks_ite_goto k ha hb hsame (hs hl).symm (hs hl).symm (by decide) (by decide)
  | m1 | l1 =>
    rintro ⟨-, -, -, hhold⟩
    exact tracks_command k ha hb rfl (hhold.maySend (by decide)) (hs hl).symm (by decide)
  | l2 | s2 =>
    exact fun _ => tracks_poll hb fun t hsame herr =>
      tracks_goto_of k ha hb (congrArg Prod.fst hsame) (hs hl).symm fun _ => herr
  | l3 | s3 =>
    refine fun _ => tracks_readToBuf fun t hsame hsnap =>
      tracks_finishByErr k (congrArg (·.1.1) hsame) (.inr (hs hl)) ?_
    rw [hsnap]
    exact k.polled (by simp [hl])

/-! ### A command's completion keeps the trace -/

/-- What the engine's position says of a command in flight there: with START it takes the trace to the next stage (R123, R176, R191,
R193). -/
theorem RunsTxn.pending_start (h : RunsTxn m s) (hb : s.busy = true) (hc : s.pend = some c) (ht0 : s.epc.label ≠ .t0) :
    (c.start = true ∧ stage s = .fresh ∧ stageAt s.epc.label false = .started) ∨
    (c.start = true ∧ stage s = .started ∧ stageAt s.epc.label false = .turned) ∨
    (c.start = false ∧ stage s ≠ .fresh ∧ stageAt s.epc.label false = stage s) := by
  have hE := h.inv.engine h.active
  revert hE
  rw [stage, hb]
  unfold EngineAtOk
  cases hl : s.epc.label with
  | i0 | i1 =>
    rintro ⟨hop, -⟩
    exact absurd hop h.txn
  | t0 => exact absurd hl ht0
  | a1 | abort | x1 =>
    rintro ⟨-, hfree⟩
    simp [hb] at hfree
  | a2 | a3 =>
    rintro ⟨-, hfree, -⟩
    simp [hb] at hfree
  | l3 | s3 =>
    rintro ⟨-, -, hfree, -⟩
    simp [hb] at hfree
  | w1 | r1 | b4 | q1 =>
    rintro ⟨-, -, hhold⟩
    simp [hhold.free] at hb
  | w2 | r2 | r4 | b5 =>
    rintro ⟨-, -, hhold, -⟩
    simp [hhold.free] at hb
  | b1 | m1 | l1 =>
    rintro ⟨-, -, -, hhold⟩
    simp [hhold.free] at hb
  | b2 | q2 | q4 | m3 | s1 =>
    rintro ⟨-, -, -, hhold, -⟩
    simp [hhold.free] at hb
  | a4 =>
    rintro ⟨-, hwait, -⟩
    obtain ⟨hstart, -⟩ := hwait c hc
    exact .inl ⟨hstart, rfl, rfl⟩
  | x2 =>
    rintro ⟨-, hwait, -⟩
    obtain ⟨hstart, -⟩ := hwait c hc
    exact .inr (.inr ⟨hstart, nofun, rfl⟩)
  | w3 | b6 | l2 =>
    rintro ⟨-, -, hwait, -⟩
    obtain ⟨hstart, -⟩ := hwait c hc
    exact .inr (.inr ⟨hstart, nofun, rfl⟩)
  | b3 | m2 =>
    rintro ⟨-, -, -, hwait, -⟩
    obtain ⟨hstart, -⟩ := hwait c hc
    exact .inr (.inr ⟨hstart, nofun, rfl⟩)
  | r3 | s2 =>
    rintro ⟨-, -, hwait, -⟩
    obtain ⟨hstart, -⟩ := hwait c hc
    exact .inr (.inl ⟨hstart, rfl, rfl⟩)
  | q3 =>
    rintro ⟨-, -, -, hwait, -⟩
    obtain ⟨hstart, -⟩ := hwait c hc
    exact .inr (.inl ⟨hstart, rfl, rfl⟩)

/-- A trace that the command in flight goes on from has no event that releases the bus. -/
theorem Traced.unreleased (k : Traced tr s) (hb : s.busy = true) : tr.any releases = false := by
  obtain ⟨-, hheld⟩ := k.waiting hb
  by_cases hne : tr = []
  · rw [hne]
    rfl
  · exact (k.leaves hne).unreleased (hheld hne)

/-- The trace with the command's events, where the engine then stands. -/
theorem Traced.extended {starts : List BusEvent} (k : Traced tr s) (hb : s.busy = true) (e : Emits starts s t evs)
    (hepc : t.epc = s.epc) (hfree : t.busy = false) (hstarts : Starts (tr ++ evs) (stage t)) (hs : stage t ≠ .fresh)
    (herr : erred t = (erred s || errorFlag t)) : Traced (tr ++ evs) t := by
  obtain ⟨⟨-, hl3, hs3⟩, -⟩ := k.waiting hb
  have hne : tr ++ evs ≠ [] := hstarts.begun hs
  refine ⟨hstarts, fun h => absurd h hne, fun _ => e.leaves.append (k.unreleased hb), ?_, fun h => ?_, fun h => ?_⟩
  · rw [List.any_append, k.errors, e.errors, herr]
  · exact absurd (hfree.symm.trans h) (by decide)
  · rw [hepc] at h
    exact (h.elim hl3 hs3).elim

/-- The completion of a command in flight adds its events to the trace (R122). -/
theorem RunsTxn.traced_runCommand (h : RunsTxn m s) (k : Traced tr s) (hb : s.busy = true) (hc : s.pend = some c) :
    ∃ evs, (runCommand E c s).hb = s.hb ++ evs ∧ Traced (tr ++ evs) (runCommand E c s) := by
  obtain ⟨⟨ht0, -⟩, hheld⟩ := k.waiting hb
  have p := h.inv.pendOk c hc
  have hclear := p.noError
  have hepc : (runCommand E c s).epc = s.epc := (frame_runCommand E c s).epc
  have hfree : (runCommand E c s).busy = false := (settled_runCommand E c s p).busy
  have hstarts := k.starts
  obtain ⟨evs, e⟩ := emits_runCommand (E := E) p
  have hnext : stage (runCommand E c s) = stageAt s.epc.label false := by rw [stage, hepc, hfree]
  have hadded := e.starts
  rw [p.origin] at hadded
  refine ⟨evs, e.hb, ?_⟩
  rcases h.pending_start hb hc ht0 with ⟨hstart, hs, ht⟩ | ⟨hstart, hs, ht⟩ | ⟨hstart, hs, ht⟩
  · rw [ht] at hnext
    obtain rfl : tr = [] := by rwa [hs] at hstarts
    refine k.extended hb e hepc hfree ?_ (by simp [hnext]) (by simp [erred, hnext, hs])
    rw [hnext, Starts, List.nil_append, hadded, hstart, k.untaken rfl]
    rfl
  · rw [ht] at hnext
    rw [hs] at hstarts
    have hne := k.starts.begun (by simp [hs])
    refine k.extended hb e hepc hfree ?_ (by simp [hnext]) (by simp [erred, hnext, hs, hclear])
    rw [hnext, Starts, List.filter_append, hadded, hstart, hstarts, if_pos rfl, startEvent, if_neg (hheld hne)]
    rfl
  · rw [ht] at hnext
    rw [hstart, if_neg (by decide)] at hadded
    refine k.extended hb e hepc hfree ?_ (by rwa [hnext]) ?_
    · rw [hnext]
      exact hstarts.append hs hadded
    · rw [erred, erred, hnext]
      cases hg : stage s with
      | fresh => exact absurd hg hs
      | started | turned => simp [hclear]
      | failed => rfl

/-! ### The whole trace -/

/-- The transaction accepted in `r` runs in `s`, and has added a trace to the history `h`. -/
structure Recorded (E : Env) (r : State) (h : List BusEvent) (s : State) : Prop where
  underway : Underway E r s
  traced : ∃ tr, s.hb = h ++ tr ∧ Traced tr s

variable {h : List BusEvent}

/-- A round goes on with the trace, or ends the request with it (log entry 1). -/
theorem Recorded.oneRound (k : Recorded E r h s) :
    Recorded E r h (oneRound E s) ∨
    Ended E r (oneRound E s) ∧ ∃ tr, (oneRound E s).hb = h ++ tr ∧ Concluded tr (oneRound E s) := by
  obtain ⟨hrun, tr, hhb, htr⟩ := k
  unfold Machine.oneRound
  split
  next hb =>
    rcases complete_cases E s with heq | ⟨-, hgo, c, hc, heq⟩
    · rw [heq]
      exact .inl ⟨hrun, tr, hhb, htr⟩
    · obtain ⟨evs, hadds, htraced⟩ := hrun.runs.traced_runCommand (E := E) htr hb hc
      have hnext := (hrun.completes hb hgo).1
      rw [heq] at hnext ⊢
      exact .inl ⟨hnext, tr ++ evs, by rw [hadds, hhb, List.append_assoc], htraced⟩
  next hb =>
    have hfree : s.busy = false := by simpa using hb
    rw [engineStep_running hrun.runs.active hrun.unstopped]
    have hmove := hrun.runs.engineAt (E := E)
    have hkept := hmove.kept
    obtain ⟨hon, hend⟩ := hrun.runs.tracks (E := E) htr hfree (congrArg State.faults hkept :)
    have hsame : (engineAt E s).hb = h ++ tr := (congrArg State.hb hkept :).trans hhb
    rcases hrun.moves hmove (hrun.runs.nears hfree) with ⟨hnext, -⟩ | hended
    · exact .inl ⟨hnext, tr, hsame, hon hnext.runs.active⟩
    · obtain ⟨-, hidle, -⟩ := hended.ready
      exact .inr ⟨hended, tr, hsame, hend hidle⟩

/-- When the request has ended, it has left a trace that is as it must be, and the bus Idle. -/
theorem Recorded.concludes {j : Nat} (k : Recorded E r h s) (hended : (rounds E j s).eact = false) :
    (rounds E j s).cstate = .idle ∧ ∃ tr, (rounds E j s).hb = h ++ tr ∧ Concluded tr (rounds E j s) := by
  induction j generalizing s with
  | zero => exact absurd (k.underway.runs.active.symm.trans hended) (by decide)
  | succ j ih =>
    rw [rounds] at hended ⊢
    rcases k.oneRound with hnext | ⟨hend, hdone⟩
    · exact ih hnext hended
    · rw [rounds_of_readyToRun hend.ready]
      obtain ⟨-, -, -, hidle, -⟩ := hend.ready
      exact ⟨hidle, hdone⟩

/-- An accepted transaction with bytes to move has an empty trace (R170). -/
theorem recorded_acceptRequest {op : Op} {o : Operands} (hready : readyToRun E s) (htxn : Op.isTxn op = true)
    (hadmits : requestFault E op o s = none) (hburst : Op.isBurst op = true → 1 ≤ o.n) :
    Recorded E (latchRequest op o s) s.hb (acceptRequest E op o s) := by
  have hop := op_ne_init_of_isTxn htxn
  have hn := not_zero_burst hburst
  have k := stands_acceptRequest hready hop hn
  have hs : stage (acceptRequest E op o s) = .fresh := by
    rw [stage, k.pos]
    rfl
  refine ⟨underway_acceptRequest hready hop hadmits hn, [], by simpa using k.hb, ?_⟩
  exact ⟨by rw [hs]; rfl, fun _ => k.cstate, nofun, by rw [erred, hs]; rfl, fun h => absurd (k.free.symm.trans h) (by decide),
    by simp [k.pos]⟩

/-- The trace of an ended transaction (R195.2, R195.5). -/
theorem acceptRequest_concludes {op : Op} {o : Operands} {j : Nat} (hready : readyToRun E s) (htxn : Op.isTxn op = true)
    (hadmits : requestFault E op o s = none) (hburst : Op.isBurst op = true → 1 ≤ o.n)
    (hended : (rounds E j (acceptRequest E op o s)).eact = false) :
    ∃ tr, (rounds E j (acceptRequest E op o s)).hb = s.hb ++ tr ∧ Concluded tr (rounds E j (acceptRequest E op o s)) ∧
      Leaves .idle tr := by
  obtain ⟨hidle, tr, hhb, k⟩ := (recorded_acceptRequest hready htxn hadmits hburst).concludes hended
  exact ⟨tr, hhb, k, hidle ▸ k.leaves⟩

/-- Settles O58: the status is that of the trace at the step that finishes the request. -/
theorem okExactlyWhenTheTraceIsClean : Obligations.OkExactlyWhenTheTraceIsClean := by
  intro E s op o j hready htxn hadmits hburst t hended
  obtain ⟨tr, hhb, k, -⟩ := acceptRequest_concludes hready htxn hadmits hburst hended
  exact ⟨tr, hhb, k.status⟩

/-- The counts of START and repeated START are those among the starts. -/
theorem count_starts (h : tr.filter isStart = [.start] ∨ tr.filter isStart = [.start, .rstart]) :
    tr.count .start = 1 ∧ tr.count .rstart ≤ 1 := by
  have hstart : (tr.filter isStart).count .start = tr.count .start := List.count_filter rfl
  have hrstart : (tr.filter isStart).count .rstart = tr.count .rstart := List.count_filter rfl
  rw [← hstart, ← hrstart]
  rcases h with h | h <;> rw [h] <;> decide

/-- A trace that has not released the bus holds no STOP and no loss. -/
theorem no_stop_no_loss (h : tr.any releases = false) : tr.count .stop = 0 ∧ tr.any losesBus = false := by
  have hkept := List.any_eq_false.mp h
  refine ⟨List.count_eq_zero.mpr fun hstop => hkept _ hstop rfl, List.any_eq_false.mpr fun e he hlost => hkept e he ?_⟩
  rw [releases, hlost, Bool.or_true]

/-- Settles O57: the last event of the trace alone releases the bus, by STOP or by its loss. -/
theorem everyTraceHasOneStartAndOneStop : Obligations.EveryTraceHasOneStartAndOneStop := by
  intro E s op o j hready htxn hadmits hburst t hended
  obtain ⟨tr, hhb, k, hleaves⟩ := acceptRequest_concludes hready htxn hadmits hburst hended
  obtain ⟨hstart, hrstart⟩ := count_starts k.starts
  refine ⟨tr, hhb, hstart, hrstart, ?_⟩
  cases hleaves with
  | held hst => exact absurd rfl hst
  | @released before e hopen he =>
    obtain ⟨hstop, hkept⟩ := no_stop_no_loss hopen
    cases hlost : losesBus e with
    | false =>
      obtain rfl : e = .stop := by simpa [releases, hlost] using he
      refine ⟨fun _ => ⟨by simp [hstop], by simp⟩, fun h => ?_⟩
      simp [hkept, hlost] at h
    | true =>
      refine ⟨fun h => ?_, fun _ => ⟨?_, e, by simp, hlost⟩⟩
      · simp [hlost] at h
      · have hne : e ≠ .stop := by rintro rfl; cases hlost
        simp [hstop, hne]

end Sys2Proof.Machine
end

section
/-!
PROOFS. What a fault does (60_exceptions.md R214): a host's move records it and changes nothing else, and the agent that raised it
takes no further step.
-/

namespace Sys2Proof.Machine

variable {s t : State}

/-! ### The host's moves -/

@[simp] theorem latchRequest_faults (op : Op) (o : Operands) (s : State) : (latchRequest op o s).faults = s.faults := by
  cases op <;> rfl

/-- A request accepted leaves the fault record (R170). -/
@[simp] theorem acceptRequest_faults (E : Env) (op : Op) (o : Operands) (s : State) :
    (acceptRequest E op o s).faults = s.faults := by
  unfold acceptRequest
  split
  · rw [finishRequest_state]
    exact latchRequest_faults op o s
  · exact latchRequest_faults op o s

/-- A move of the host leaves the fault record, or is a fault of the host's and nothing else (R214). -/
theorem HostMoves.faults_eq_or_eq_raise (h : HostMoves s t) :
    t.faults = s.faults ∨ ∃ (r : Fault) (what : Input), t = raise r .host what s := by
  cases h with
  | faulted r what => exact .inr ⟨r, what, rfl⟩
  | read r v => exact .inl rfl
  | wrote r d =>
    obtain ⟨hfaults, -⟩ := writeEffect_frame r (d.setWidth 8) s
    exact .inl hfaults
  | accepted op o => exact .inl (acceptRequest_faults _ op o s)

/-- Settles O29: what an instruction answers is a move of the host, and `raise` writes the record alone. -/
theorem hostFaultsHaveNoOtherEffect : Obligations.HostFaultsHaveNoOtherEffect := by
  intro i s
  obtain ⟨t, hnext, hmove⟩ := hostAnswers_exec i s
  exact ⟨t, hnext, hmove.faults_eq_or_eq_raise⟩

/-! ### The agent that has faulted -/

theorem engineStep_stopped (E : Env) (h : stopped .engine s = true) : engineStep E s = s :=
  if_neg fun hruns => by simp [h] at hruns

theorem hostStep_stopped (h : stopped .host s = true) : hostStep s = .next s := if_pos h

/-- A fault record that has grown still stops whom it stopped. -/
theorem stopped_of_prefix {a : Agent} (hgrown : s.faults <+: t.faults) (h : stopped a s = true) : stopped a t = true := by
  obtain ⟨f, hmem, hagent⟩ := List.any_eq_true.mp h
  exact List.any_eq_true.mpr ⟨f, hgrown.subset hmem, hagent⟩

/-- Settles O31: each agent's own step asks whether it has faulted, and the fault record only grows. -/
theorem faultedAgentTakesNoStep : Obligations.FaultedAgentTakesNoStep := by
  refine ⟨fun E _ => engineStep_stopped E, fun _ => hostStep_stopped, fun a s t hstep => ?_⟩
  obtain ⟨-, -, -, hgrown⟩ := historiesOnlyGrow s t hstep
  exact stopped_of_prefix hgrown

end Sys2Proof.Machine
end

section
/-!
PROOFS. The state after reset: R240's values, and the invariant's base case (70_reset_and_hazards.md R240, 10_state.md R24, R26).
-/

namespace Sys2Proof.Machine

/-- Settles O10: each value is a field of `State.reset`. -/
theorem resetValues : Obligations.ResetValues :=
  ⟨rfl, rfl, rfl, rfl, rfl, rfl, rfl, rfl, rfl, rfl, rfl, rfl, rfl, rfl, rfl, rfl, rfl⟩

/-- The first six clauses follow from R240's own values: nothing is pending, no latch is set, the registers hold nothing and the
bus is Idle. The last three rest on the values the model chose for `rbuf`, `n` and `wbuf` (log entry 7). -/
theorem base_reset : Base Config.maxBurst State.reset := by
  obtain ⟨-, -, hmtpr, hbusy, hadrack, hdatack, -, hcstate, hpend, -, -, -, -, -, -, hinit, -⟩ := resetValues
  exact {
    busyPend := by simp [hbusy, hpend]
    pendOk := by simp [hpend]
    oneLatch := by simp [OneLatch, hadrack, hdatack]
    legalClock := by simp [hmtpr]
    held := fun hheld => absurd hcstate hheld
    initClock := by simp [hinit]
    rbufSize := List.length_replicate
    count := Nat.zero_le _
    wbufSize := fun _ => rfl }

/-- Settles O53: the engine is idle after reset, so the rest of the invariant is that `estate` is IDLE. -/
theorem invHoldsAtReset : Obligations.InvHoldsAtReset := by
  obtain ⟨-, -, -, -, -, -, -, -, -, -, -, -, hestate, -, heact, -, -⟩ := resetValues
  exact base_reset.inv heact hestate

end Sys2Proof.Machine
end
